-- ==== Sys2Proof/Word.lean ====
section
/-! DEFINITION. The two word types of the 6502 core: the spec's u8 and u16 (00_scope.md R9). -/

namespace Sys2Proof

/-- A u8: a register, a memory byte, an opcode (R9). -/
abbrev Byte := BitVec 8

/-- A u16: the program counter, an address, the 16-bit latches (R9). -/
abbrev Addr := BitVec 16

end Sys2Proof
end

