-- ==== Sys2Proof/Config.lean ====
section
/-! DEFINITION. What can be on the bus (20_memory.md R60, R62), and the implementation parameters the spec leaves open
(00_scope.md R8). The default values stand in Decode.lean (`defaultParams`), the fixed constants of R7 beside the operations that
use them. -/

namespace Sys2Proof.Machine

/-- The bytes of the RAM bus that are not 0, by address: strictly rising addresses, no entry equal to 0 (`Memory.wf`).
An address without an entry reads as 0 (R62: "initially zero"). -/
abbrev Memory := List Host.Cell

/-- One call of the bus: a read with the byte it returns, or a write (R60). -/
inductive BusAccess where
  | read (a : Addr) (v : Byte)
  | write (a : Addr) (v : Byte)
  deriving DecidableEq, Repr

/-- What is on the bus (R8 `BUS`, R62): the RAM with its contents, or a host-supplied read/write pair: the host's number for the
pair, and the calls made on it so far, the last one first. DESIGN CHOICE (the spec's D24 and the model's form): log 5. -/
inductive Bus where
  | ram (mem : Memory)
  | host (pair : Nat) (calls : List BusAccess)
  deriving DecidableEq, Repr

end Sys2Proof.Machine

namespace Sys2Proof

/-- FREE VALUE: the byte that a host-supplied pair returns for a read, by the pair's number, the calls made on it before (the last
one first) and the address. "Any memory-mapped device behavior is a host concern" (R62): nothing constrains it. Log 5. -/
opaque Config.hostReply : Nat → List Machine.BusAccess → Addr → Byte

/-- `BRK_MODE` (R8, D3): the addressing-mode tag of opcode 0x00. -/
inductive BrkMode where
  | imp
  | imm
  deriving DecidableEq, Repr

/-- `UNOFFICIAL_NOP_MODES` (R8, D5): the modes and lengths of the 28 unofficial NOP rows. -/
inductive NopModes where
  | hardware
  | implied
  deriving DecidableEq, Repr

/-- `ILLEGAL_OPCODE_POLICY` (R8, D7): what a model does with a `???` row. -/
inductive IllegalPolicy where
  | nop
  | refuse
  deriving DecidableEq, Repr

/-- The parameters of R8, which a model takes as an argument. The first three are read by the decoder and the clock; the bus is
what the host connects at the start (`State.resetWith` in Machine/Ops.lean), and from then on part of the state. -/
structure Params where
  brkMode : BrkMode
  nopModes : NopModes
  illegal : IllegalPolicy
  bus : Machine.Bus
  deriving DecidableEq, Repr

end Sys2Proof
end

