-- ==== Sys2Proof/Syntax.lean ====
section
/-! DEFINITION. The instructions as syntax: mode tags, operations, operands, and the one inductive `Instr`. -/

namespace Sys2Proof

/-- The 12 addressing-mode tags (30_encoding.md R90; accumulator is the IMP tag, R142). -/
inductive Mode where
  | imp | imm | zp0 | zpx | zpy | rel | abs | abx | aby | ind | izx | izy
  deriving DecidableEq, Repr

/-- How many operand bytes follow the opcode in each mode (R92). -/
def Mode.operandBytes : Mode → Nat
  | .imp => 0
  | .imm => 1
  | .zp0 => 1
  | .zpx => 1
  | .zpy => 1
  | .rel => 1
  | .abs => 2
  | .abx => 2
  | .aby => 2
  | .ind => 2
  | .izx => 1
  | .izy => 1

/-- The operations a table row can name: the 56 documented ones and `???`, here `unused` (R91). -/
inductive Op where
  | adc | sbc | and | ora | eor | bit | cmp | cpx | cpy
  | asl | lsr | rol | ror | inc | dec | inx | iny | dex | dey
  | lda | ldx | ldy | sta | stx | sty | tax | tay | txa | tya | tsx | txs
  | pha | php | pla | plp | clc | sec | cld | sed | cli | sei | clv
  | bpl | bmi | bvc | bvs | bcc | bcs | bne | beq | jmp | jsr | rts | rti | brk | nop | unused
  deriving DecidableEq, Repr

/-- An operand: the mode tag with the operand bytes assembled as R93 says. -/
inductive Operand where
  /-- no operand byte: implied, or the accumulator -/
  | imp
  /-- immediate byte -/
  | imm (value : Byte)
  /-- zero-page address -/
  | zp0 (z : Byte)
  /-- zero-page base, X is added -/
  | zpx (z : Byte)
  /-- zero-page base, Y is added -/
  | zpy (z : Byte)
  /-- signed displacement -/
  | rel (d : Byte)
  /-- absolute address -/
  | abs (addr : Addr)
  /-- absolute base, X is added -/
  | abx (addr : Addr)
  /-- absolute base, Y is added -/
  | aby (addr : Addr)
  /-- pointer to the target -/
  | ind (ptr : Addr)
  /-- zero-page base of a pointer, X is added -/
  | izx (z : Byte)
  /-- zero-page address of a pointer, Y is added to the target -/
  | izy (z : Byte)
  deriving DecidableEq, Repr

/-- The mode tag of an operand (R92). -/
def Operand.mode : Operand → Mode
  | .imp => .imp
  | .imm _ => .imm
  | .zp0 _ => .zp0
  | .zpx _ => .zpx
  | .zpy _ => .zpy
  | .rel _ => .rel
  | .abs _ => .abs
  | .abx _ => .abx
  | .aby _ => .aby
  | .ind _ => .ind
  | .izx _ => .izx
  | .izy _ => .izy

/-- The instructions: one constructor for each operation of spec/opcode_table.json (its mnemonic), so that the operand
says which of the operation's rows it is. `viaEB` marks the second SBC row (0xEB, R97); NOP and `???` carry their opcode,
because several of their rows share a mode (R97, R98). -/
inductive Instr where
  -- 41_alu_arith_logic.md
  /-- ADC (R161) -/
  | adc (o : Operand)
  /-- SBC (R162); `viaEB` is the unofficial row 0xEB -/
  | sbc (viaEB : Bool) (o : Operand)
  /-- AND (R163) -/
  | and (o : Operand)
  /-- ORA (R164) -/
  | ora (o : Operand)
  /-- EOR (R165) -/
  | eor (o : Operand)
  /-- BIT (R166) -/
  | bit (o : Operand)
  /-- CMP (R167) -/
  | cmp (o : Operand)
  /-- CPX (R168) -/
  | cpx (o : Operand)
  /-- CPY (R169) -/
  | cpy (o : Operand)
  -- 42_shift_incdec.md
  /-- ASL (R201) -/
  | asl (o : Operand)
  /-- LSR (R202) -/
  | lsr (o : Operand)
  /-- ROL (R203) -/
  | rol (o : Operand)
  /-- ROR (R204) -/
  | ror (o : Operand)
  /-- INC (R205) -/
  | inc (o : Operand)
  /-- DEC (R206) -/
  | dec (o : Operand)
  /-- INX (R207) -/
  | inx
  /-- INY (R208) -/
  | iny
  /-- DEX (R209) -/
  | dex
  /-- DEY (R210) -/
  | dey
  -- 43_load_store_transfer.md
  /-- LDA (R240) -/
  | lda (o : Operand)
  /-- LDX (R241) -/
  | ldx (o : Operand)
  /-- LDY (R242) -/
  | ldy (o : Operand)
  /-- STA (R243) -/
  | sta (o : Operand)
  /-- STX (R244) -/
  | stx (o : Operand)
  /-- STY (R245) -/
  | sty (o : Operand)
  /-- TAX (R246) -/
  | tax
  /-- TAY (R247) -/
  | tay
  /-- TXA (R248) -/
  | txa
  /-- TYA (R249) -/
  | tya
  /-- TSX (R250) -/
  | tsx
  /-- TXS (R251) -/
  | txs
  -- 44_stack_flags.md
  /-- PHA (R280) -/
  | pha
  /-- PHP (R281) -/
  | php
  /-- PLA (R282) -/
  | pla
  /-- PLP (R283) -/
  | plp
  /-- CLC (R284) -/
  | clc
  /-- SEC (R285) -/
  | sec
  /-- CLD (R286) -/
  | cld
  /-- SED (R287) -/
  | sed
  /-- CLI (R288) -/
  | cli
  /-- SEI (R289) -/
  | sei
  /-- CLV (R290) -/
  | clv
  -- 45_control_transfer.md
  /-- BPL (R321) -/
  | bpl (d : Byte)
  /-- BMI (R322) -/
  | bmi (d : Byte)
  /-- BVC (R323) -/
  | bvc (d : Byte)
  /-- BVS (R324) -/
  | bvs (d : Byte)
  /-- BCC (R325) -/
  | bcc (d : Byte)
  /-- BCS (R326) -/
  | bcs (d : Byte)
  /-- BNE (R327) -/
  | bne (d : Byte)
  /-- BEQ (R328) -/
  | beq (d : Byte)
  /-- JMP (R329) -/
  | jmp (o : Operand)
  /-- JSR (R330) -/
  | jsr (addr : Addr)
  /-- RTS (R331) -/
  | rts
  /-- RTI (R332) -/
  | rti
  /-- BRK (R333) -/
  | brk (o : Operand)
  /-- NOP (R334): the official row and the 28 unofficial ones -/
  | nop (code : Byte) (o : Operand)
  /-- `???` (R335): the 76 unused rows -/
  | unused (code : Byte)
  deriving DecidableEq, Repr

/-- The operation of an instruction (R91). -/
def Instr.op : Instr → Op
  | .adc _ => .adc
  | .sbc _ _ => .sbc
  | .and _ => .and
  | .ora _ => .ora
  | .eor _ => .eor
  | .bit _ => .bit
  | .cmp _ => .cmp
  | .cpx _ => .cpx
  | .cpy _ => .cpy
  | .asl _ => .asl
  | .lsr _ => .lsr
  | .rol _ => .rol
  | .ror _ => .ror
  | .inc _ => .inc
  | .dec _ => .dec
  | .inx => .inx
  | .iny => .iny
  | .dex => .dex
  | .dey => .dey
  | .lda _ => .lda
  | .ldx _ => .ldx
  | .ldy _ => .ldy
  | .sta _ => .sta
  | .stx _ => .stx
  | .sty _ => .sty
  | .tax => .tax
  | .tay => .tay
  | .txa => .txa
  | .tya => .tya
  | .tsx => .tsx
  | .txs => .txs
  | .pha => .pha
  | .php => .php
  | .pla => .pla
  | .plp => .plp
  | .clc => .clc
  | .sec => .sec
  | .cld => .cld
  | .sed => .sed
  | .cli => .cli
  | .sei => .sei
  | .clv => .clv
  | .bpl _ => .bpl
  | .bmi _ => .bmi
  | .bvc _ => .bvc
  | .bvs _ => .bvs
  | .bcc _ => .bcc
  | .bcs _ => .bcs
  | .bne _ => .bne
  | .beq _ => .beq
  | .jmp _ => .jmp
  | .jsr _ => .jsr
  | .rts => .rts
  | .rti => .rti
  | .brk _ => .brk
  | .nop _ _ => .nop
  | .unused _ => .unused

/-- The operand of an instruction. -/
def Instr.operand : Instr → Operand
  | .adc o => o
  | .sbc _ o => o
  | .and o => o
  | .ora o => o
  | .eor o => o
  | .bit o => o
  | .cmp o => o
  | .cpx o => o
  | .cpy o => o
  | .asl o => o
  | .lsr o => o
  | .rol o => o
  | .ror o => o
  | .inc o => o
  | .dec o => o
  | .inx => .imp
  | .iny => .imp
  | .dex => .imp
  | .dey => .imp
  | .lda o => o
  | .ldx o => o
  | .ldy o => o
  | .sta o => o
  | .stx o => o
  | .sty o => o
  | .tax => .imp
  | .tay => .imp
  | .txa => .imp
  | .tya => .imp
  | .tsx => .imp
  | .txs => .imp
  | .pha => .imp
  | .php => .imp
  | .pla => .imp
  | .plp => .imp
  | .clc => .imp
  | .sec => .imp
  | .cld => .imp
  | .sed => .imp
  | .cli => .imp
  | .sei => .imp
  | .clv => .imp
  | .bpl d => .rel d
  | .bmi d => .rel d
  | .bvc d => .rel d
  | .bvs d => .rel d
  | .bcc d => .rel d
  | .bcs d => .rel d
  | .bne d => .rel d
  | .beq d => .rel d
  | .jmp o => o
  | .jsr addr => .abs addr
  | .rts => .imp
  | .rti => .imp
  | .brk o => o
  | .nop _ o => o
  | .unused _ => .imp

/-- The mode tag of an instruction. -/
def Instr.mode (i : Instr) : Mode := i.operand.mode

/-- The number of bytes of an instruction, the opcode included (R92). -/
def Instr.length (i : Instr) : Nat := 1 + i.mode.operandBytes

end Sys2Proof
end

