-- ==== Sys2Proof/WellFormed.lean ====
section
/-! DEFINITION. Which instructions have a row in the opcode table, under given parameters.
Written from the "Encodings" lines of the instruction rules and from R97 and R98; Decode.lean is written from the map of R95,
and Laws/Encoding.lean proves that the two agree. -/

namespace Sys2Proof

/-- The modes an operation has a row in, by the "Encodings" line of its rule.
For NOP the rows of R97 decide (`nopRowMode`), for BRK the parameter (`brkRowMode`). -/
def Op.modes : Op → List Mode
  | .adc | .sbc | .and | .ora | .eor | .cmp | .lda => [.imm, .zp0, .zpx, .abs, .abx, .aby, .izx, .izy]
  | .bit => [.zp0, .abs]
  | .cpx | .cpy => [.imm, .zp0, .abs]
  | .asl | .lsr | .rol | .ror => [.imp, .zp0, .zpx, .abs, .abx]
  | .inc | .dec => [.zp0, .zpx, .abs, .abx]
  | .ldx => [.imm, .zp0, .zpy, .abs, .aby]
  | .ldy => [.imm, .zp0, .zpx, .abs, .abx]
  | .sta => [.zp0, .zpx, .abs, .abx, .aby, .izx, .izy]
  | .stx => [.zp0, .zpy, .abs]
  | .sty => [.zp0, .zpx, .abs]
  | .jmp => [.abs, .ind]
  | .jsr => [.abs]
  | .bpl | .bmi | .bvc | .bvs | .bcc | .bcs | .bne | .beq => [.rel]
  | .inx | .iny | .dex | .dey | .tax | .tay | .txa | .tya | .tsx | .txs
  | .pha | .php | .pla | .plp | .clc | .sec | .cld | .sed | .cli | .sei | .clv | .rts | .rti | .unused => [.imp]
  | .brk => [.imp, .imm]
  | .nop => [.imp, .imm, .zp0, .zpx, .abs, .abx]

/-- The 28 unofficial NOP rows with their modes under `UNOFFICIAL_NOP_MODES = hardware` (R97). -/
def unofficialNops : List (Byte × Mode) :=
  [(0x1A, .imp), (0x3A, .imp), (0x5A, .imp), (0x7A, .imp), (0xDA, .imp), (0xFA, .imp)]
  ++ [(0x80, .imm), (0x82, .imm), (0x89, .imm), (0xC2, .imm), (0xE2, .imm)]
  ++ [(0x04, .zp0), (0x44, .zp0), (0x64, .zp0)]
  ++ [(0x14, .zpx), (0x34, .zpx), (0x54, .zpx), (0x74, .zpx), (0xD4, .zpx), (0xF4, .zpx)]
  ++ [(0x0C, .abs)]
  ++ [(0x1C, .abx), (0x3C, .abx), (0x5C, .abx), (0x7C, .abx), (0xDC, .abx), (0xFC, .abx), (0x9C, .abx)]

/-- The mode of a NOP row, if the opcode is one: 0xEA is IMP, an unofficial row follows the parameter (R97). -/
def nopRowMode (p : Params) (code : Byte) : Option Mode :=
  if code = 0xEA then some .imp
  else match unofficialNops.lookup code, p.nopModes with
    | some m, .hardware => some m
    | some _, .implied => some .imp
    | none, _ => none

/-- The mode of BRK under the parameter (R333). -/
def brkRowMode (p : Params) : Mode :=
  match p.brkMode with
  | .imp => .imp
  | .imm => .imm

/-- The 76 unused rows, `???` (R98). -/
def unusedRows : List Byte :=
  [0x02, 0x03, 0x07, 0x0B, 0x0F, 0x12, 0x13, 0x17, 0x1B, 0x1F, 0x22, 0x23, 0x27, 0x2B, 0x2F, 0x32, 0x33, 0x37, 0x3B, 0x3F]
  ++ [0x42, 0x43, 0x47, 0x4B, 0x4F, 0x52, 0x53, 0x57, 0x5B, 0x5F, 0x62, 0x63, 0x67, 0x6B, 0x6F, 0x72, 0x73, 0x77, 0x7B, 0x7F]
  ++ [0x83, 0x87, 0x8B, 0x8F, 0x92, 0x93, 0x97, 0x9B, 0x9E, 0x9F, 0xA3, 0xA7, 0xAB, 0xAF, 0xB2, 0xB3, 0xB7, 0xBB, 0xBF]
  ++ [0xC3, 0xC7, 0xCB, 0xCF, 0xD2, 0xD3, 0xD7, 0xDB, 0xDF, 0xE3, 0xE7, 0xEF, 0xF2, 0xF3, 0xF7, 0xFB, 0xFF]

/-- Check 1: the operation has a row in the operand's mode. -/
def Instr.modeOk (i : Instr) : Bool := i.op.modes.contains i.mode

/-- Check 2: what the mode alone does not settle. The second SBC row is immediate (R97), a NOP or `???` carries an opcode of its
own rows (R97, R98), a `???` row exists only where the policy runs it (R98), and BRK has the parameter's mode (R333). -/
def Instr.rowOk (p : Params) : Instr → Bool
  | .sbc true o => o.mode == .imm
  | .nop code o => nopRowMode p code == some o.mode
  | .unused code => unusedRows.contains code && p.illegal == .nop
  | .brk o => o.mode == brkRowMode p
  | .sbc false _ | .adc _ | .and _ | .ora _ | .eor _ | .bit _ | .cmp _ | .cpx _ | .cpy _
  | .asl _ | .lsr _ | .rol _ | .ror _ | .inc _ | .dec _ | .inx | .iny | .dex | .dey
  | .lda _ | .ldx _ | .ldy _ | .sta _ | .stx _ | .sty _ | .tax | .tay | .txa | .tya | .tsx | .txs
  | .pha | .php | .pla | .plp | .clc | .sec | .cld | .sed | .cli | .sei | .clv
  | .bpl _ | .bmi _ | .bvc _ | .bvs _ | .bcc _ | .bcs _ | .bne _ | .beq _ | .jmp _ | .jsr _ | .rts | .rti => true

/-- An instruction that the table has under the parameters `p`. -/
def Instr.wf (p : Params) (i : Instr) : Bool := i.modeOk && i.rowOk p

end Sys2Proof
end

