-- ==== Sys2Proof/Decode.lean ====
section
/-! DEFINITION. The byte helpers, the opcode table of R95, the decoder, and after it the encoder.
The default values of the parameters of R8 stand here. -/

namespace Sys2Proof

/-- `hi(a)`, bits 15 to 8 (R9). -/
def hi (a : Addr) : Byte := a.extractLsb' 8 8

/-- `lo(a)`, bits 7 to 0 (R9). -/
def lo (a : Addr) : Byte := a.extractLsb' 0 8

/-- `h:l`, the 16-bit value with high byte `h` (R9). -/
def joinBytes (h l : Byte) : Addr := h ++ l

/-- `zext_16(v)` (R10). -/
def zext16 (v : Byte) : Addr := v.setWidth 16

/-- `sext_16(v)` (R10). -/
def sext16 (v : Byte) : Addr := v.signExtend 16

/-- The defaults of R8. DESIGN CHOICE (the spec's own, D3, D5, D7, D24): logs 2, 3, 4, 5. -/
def defaultParams : Params :=
  { brkMode := .imp, nopModes := .hardware, illegal := .nop, bus := .ram [] }

/-- A row of the instruction table: operation, mode tag, base cycles (R90). -/
structure Row where
  op : Op
  mode : Mode
  baseCycles : Nat
  deriving DecidableEq, Repr

/-- The opcode map of R95, a list of 16 rows for each high nibble. PRESUMED (the spec's D2, D4, D5, D6, D8): log 6. -/
def opcodeTable : List Row :=
  [⟨.brk, .imp, 7⟩, ⟨.ora, .izx, 6⟩, ⟨.unused, .imp, 2⟩, ⟨.unused, .imp, 8⟩, ⟨.nop, .zp0, 3⟩, ⟨.ora, .zp0, 3⟩, ⟨.asl, .zp0, 5⟩, ⟨.unused, .imp, 5⟩,
     ⟨.php, .imp, 3⟩, ⟨.ora, .imm, 2⟩, ⟨.asl, .imp, 2⟩, ⟨.unused, .imp, 2⟩, ⟨.nop, .abs, 4⟩, ⟨.ora, .abs, 4⟩, ⟨.asl, .abs, 6⟩, ⟨.unused, .imp, 6⟩]  -- 0x
  ++ [⟨.bpl, .rel, 2⟩, ⟨.ora, .izy, 5⟩, ⟨.unused, .imp, 2⟩, ⟨.unused, .imp, 8⟩, ⟨.nop, .zpx, 4⟩, ⟨.ora, .zpx, 4⟩, ⟨.asl, .zpx, 6⟩, ⟨.unused, .imp, 6⟩,
     ⟨.clc, .imp, 2⟩, ⟨.ora, .aby, 4⟩, ⟨.nop, .imp, 2⟩, ⟨.unused, .imp, 7⟩, ⟨.nop, .abx, 4⟩, ⟨.ora, .abx, 4⟩, ⟨.asl, .abx, 7⟩, ⟨.unused, .imp, 7⟩]  -- 1x
  ++ [⟨.jsr, .abs, 6⟩, ⟨.and, .izx, 6⟩, ⟨.unused, .imp, 2⟩, ⟨.unused, .imp, 8⟩, ⟨.bit, .zp0, 3⟩, ⟨.and, .zp0, 3⟩, ⟨.rol, .zp0, 5⟩, ⟨.unused, .imp, 5⟩,
     ⟨.plp, .imp, 4⟩, ⟨.and, .imm, 2⟩, ⟨.rol, .imp, 2⟩, ⟨.unused, .imp, 2⟩, ⟨.bit, .abs, 4⟩, ⟨.and, .abs, 4⟩, ⟨.rol, .abs, 6⟩, ⟨.unused, .imp, 6⟩]  -- 2x
  ++ [⟨.bmi, .rel, 2⟩, ⟨.and, .izy, 5⟩, ⟨.unused, .imp, 2⟩, ⟨.unused, .imp, 8⟩, ⟨.nop, .zpx, 4⟩, ⟨.and, .zpx, 4⟩, ⟨.rol, .zpx, 6⟩, ⟨.unused, .imp, 6⟩,
     ⟨.sec, .imp, 2⟩, ⟨.and, .aby, 4⟩, ⟨.nop, .imp, 2⟩, ⟨.unused, .imp, 7⟩, ⟨.nop, .abx, 4⟩, ⟨.and, .abx, 4⟩, ⟨.rol, .abx, 7⟩, ⟨.unused, .imp, 7⟩]  -- 3x
  ++ [⟨.rti, .imp, 6⟩, ⟨.eor, .izx, 6⟩, ⟨.unused, .imp, 2⟩, ⟨.unused, .imp, 8⟩, ⟨.nop, .zp0, 3⟩, ⟨.eor, .zp0, 3⟩, ⟨.lsr, .zp0, 5⟩, ⟨.unused, .imp, 5⟩,
     ⟨.pha, .imp, 3⟩, ⟨.eor, .imm, 2⟩, ⟨.lsr, .imp, 2⟩, ⟨.unused, .imp, 2⟩, ⟨.jmp, .abs, 3⟩, ⟨.eor, .abs, 4⟩, ⟨.lsr, .abs, 6⟩, ⟨.unused, .imp, 6⟩]  -- 4x
  ++ [⟨.bvc, .rel, 2⟩, ⟨.eor, .izy, 5⟩, ⟨.unused, .imp, 2⟩, ⟨.unused, .imp, 8⟩, ⟨.nop, .zpx, 4⟩, ⟨.eor, .zpx, 4⟩, ⟨.lsr, .zpx, 6⟩, ⟨.unused, .imp, 6⟩,
     ⟨.cli, .imp, 2⟩, ⟨.eor, .aby, 4⟩, ⟨.nop, .imp, 2⟩, ⟨.unused, .imp, 7⟩, ⟨.nop, .abx, 4⟩, ⟨.eor, .abx, 4⟩, ⟨.lsr, .abx, 7⟩, ⟨.unused, .imp, 7⟩]  -- 5x
  ++ [⟨.rts, .imp, 6⟩, ⟨.adc, .izx, 6⟩, ⟨.unused, .imp, 2⟩, ⟨.unused, .imp, 8⟩, ⟨.nop, .zp0, 3⟩, ⟨.adc, .zp0, 3⟩, ⟨.ror, .zp0, 5⟩, ⟨.unused, .imp, 5⟩,
     ⟨.pla, .imp, 4⟩, ⟨.adc, .imm, 2⟩, ⟨.ror, .imp, 2⟩, ⟨.unused, .imp, 2⟩, ⟨.jmp, .ind, 5⟩, ⟨.adc, .abs, 4⟩, ⟨.ror, .abs, 6⟩, ⟨.unused, .imp, 6⟩]  -- 6x
  ++ [⟨.bvs, .rel, 2⟩, ⟨.adc, .izy, 5⟩, ⟨.unused, .imp, 2⟩, ⟨.unused, .imp, 8⟩, ⟨.nop, .zpx, 4⟩, ⟨.adc, .zpx, 4⟩, ⟨.ror, .zpx, 6⟩, ⟨.unused, .imp, 6⟩,
     ⟨.sei, .imp, 2⟩, ⟨.adc, .aby, 4⟩, ⟨.nop, .imp, 2⟩, ⟨.unused, .imp, 7⟩, ⟨.nop, .abx, 4⟩, ⟨.adc, .abx, 4⟩, ⟨.ror, .abx, 7⟩, ⟨.unused, .imp, 7⟩]  -- 7x
  ++ [⟨.nop, .imm, 2⟩, ⟨.sta, .izx, 6⟩, ⟨.nop, .imm, 2⟩, ⟨.unused, .imp, 6⟩, ⟨.sty, .zp0, 3⟩, ⟨.sta, .zp0, 3⟩, ⟨.stx, .zp0, 3⟩, ⟨.unused, .imp, 3⟩,
     ⟨.dey, .imp, 2⟩, ⟨.nop, .imm, 2⟩, ⟨.txa, .imp, 2⟩, ⟨.unused, .imp, 2⟩, ⟨.sty, .abs, 4⟩, ⟨.sta, .abs, 4⟩, ⟨.stx, .abs, 4⟩, ⟨.unused, .imp, 4⟩]  -- 8x
  ++ [⟨.bcc, .rel, 2⟩, ⟨.sta, .izy, 6⟩, ⟨.unused, .imp, 2⟩, ⟨.unused, .imp, 6⟩, ⟨.sty, .zpx, 4⟩, ⟨.sta, .zpx, 4⟩, ⟨.stx, .zpy, 4⟩, ⟨.unused, .imp, 4⟩,
     ⟨.tya, .imp, 2⟩, ⟨.sta, .aby, 5⟩, ⟨.txs, .imp, 2⟩, ⟨.unused, .imp, 5⟩, ⟨.nop, .abx, 5⟩, ⟨.sta, .abx, 5⟩, ⟨.unused, .imp, 5⟩, ⟨.unused, .imp, 5⟩]  -- 9x
  ++ [⟨.ldy, .imm, 2⟩, ⟨.lda, .izx, 6⟩, ⟨.ldx, .imm, 2⟩, ⟨.unused, .imp, 6⟩, ⟨.ldy, .zp0, 3⟩, ⟨.lda, .zp0, 3⟩, ⟨.ldx, .zp0, 3⟩, ⟨.unused, .imp, 3⟩,
     ⟨.tay, .imp, 2⟩, ⟨.lda, .imm, 2⟩, ⟨.tax, .imp, 2⟩, ⟨.unused, .imp, 2⟩, ⟨.ldy, .abs, 4⟩, ⟨.lda, .abs, 4⟩, ⟨.ldx, .abs, 4⟩, ⟨.unused, .imp, 4⟩]  -- Ax
  ++ [⟨.bcs, .rel, 2⟩, ⟨.lda, .izy, 5⟩, ⟨.unused, .imp, 2⟩, ⟨.unused, .imp, 5⟩, ⟨.ldy, .zpx, 4⟩, ⟨.lda, .zpx, 4⟩, ⟨.ldx, .zpy, 4⟩, ⟨.unused, .imp, 4⟩,
     ⟨.clv, .imp, 2⟩, ⟨.lda, .aby, 4⟩, ⟨.tsx, .imp, 2⟩, ⟨.unused, .imp, 4⟩, ⟨.ldy, .abx, 4⟩, ⟨.lda, .abx, 4⟩, ⟨.ldx, .aby, 4⟩, ⟨.unused, .imp, 4⟩]  -- Bx
  ++ [⟨.cpy, .imm, 2⟩, ⟨.cmp, .izx, 6⟩, ⟨.nop, .imm, 2⟩, ⟨.unused, .imp, 8⟩, ⟨.cpy, .zp0, 3⟩, ⟨.cmp, .zp0, 3⟩, ⟨.dec, .zp0, 5⟩, ⟨.unused, .imp, 5⟩,
     ⟨.iny, .imp, 2⟩, ⟨.cmp, .imm, 2⟩, ⟨.dex, .imp, 2⟩, ⟨.unused, .imp, 2⟩, ⟨.cpy, .abs, 4⟩, ⟨.cmp, .abs, 4⟩, ⟨.dec, .abs, 6⟩, ⟨.unused, .imp, 6⟩]  -- Cx
  ++ [⟨.bne, .rel, 2⟩, ⟨.cmp, .izy, 5⟩, ⟨.unused, .imp, 2⟩, ⟨.unused, .imp, 8⟩, ⟨.nop, .zpx, 4⟩, ⟨.cmp, .zpx, 4⟩, ⟨.dec, .zpx, 6⟩, ⟨.unused, .imp, 6⟩,
     ⟨.cld, .imp, 2⟩, ⟨.cmp, .aby, 4⟩, ⟨.nop, .imp, 2⟩, ⟨.unused, .imp, 7⟩, ⟨.nop, .abx, 4⟩, ⟨.cmp, .abx, 4⟩, ⟨.dec, .abx, 7⟩, ⟨.unused, .imp, 7⟩]  -- Dx
  ++ [⟨.cpx, .imm, 2⟩, ⟨.sbc, .izx, 6⟩, ⟨.nop, .imm, 2⟩, ⟨.unused, .imp, 8⟩, ⟨.cpx, .zp0, 3⟩, ⟨.sbc, .zp0, 3⟩, ⟨.inc, .zp0, 5⟩, ⟨.unused, .imp, 5⟩,
     ⟨.inx, .imp, 2⟩, ⟨.sbc, .imm, 2⟩, ⟨.nop, .imp, 2⟩, ⟨.sbc, .imm, 2⟩, ⟨.cpx, .abs, 4⟩, ⟨.sbc, .abs, 4⟩, ⟨.inc, .abs, 6⟩, ⟨.unused, .imp, 6⟩]  -- Ex
  ++ [⟨.beq, .rel, 2⟩, ⟨.sbc, .izy, 5⟩, ⟨.unused, .imp, 2⟩, ⟨.unused, .imp, 8⟩, ⟨.nop, .zpx, 4⟩, ⟨.sbc, .zpx, 4⟩, ⟨.inc, .zpx, 6⟩, ⟨.unused, .imp, 6⟩,
     ⟨.sed, .imp, 2⟩, ⟨.sbc, .aby, 4⟩, ⟨.nop, .imp, 2⟩, ⟨.unused, .imp, 7⟩, ⟨.nop, .abx, 4⟩, ⟨.sbc, .abx, 4⟩, ⟨.inc, .abx, 7⟩, ⟨.unused, .imp, 7⟩]  -- Fx

/-- The row of an opcode (R122). The table has 256 rows, so the default row is never read. -/
def tableRow (b : Byte) : Row := opcodeTable.getD b.toNat ⟨.unused, .imp, 2⟩

/-- A row that the parameter `UNOFFICIAL_NOP_MODES` governs: a NOP row other than 0xEA (R97). -/
def isUnofficialNop (b : Byte) : Bool := (tableRow b).op == .nop && b != 0xEA

/-- The mode of an opcode's row under the parameters (R8, R97, R333). -/
def rowMode (p : Params) (b : Byte) : Mode :=
  if b = 0x00 then
    match p.brkMode with
    | .imp => .imp
    | .imm => .imm
  else if isUnofficialNop b then
    match p.nopModes with
    | .hardware => (tableRow b).mode
    | .implied => .imp
  else (tableRow b).mode

/-- The number of bytes of an instruction, from its opcode alone (R94). -/
def lengthOf (p : Params) (b : Byte) : Nat := 1 + (rowMode p b).operandBytes

/-- Why a list of bytes holds no instruction. -/
inductive DecodeError where
  /-- no byte, or fewer bytes than the opcode's row needs -/
  | truncated
  /-- a `???` row under `ILLEGAL_OPCODE_POLICY = refuse` (R98) -/
  | illegalOpcode (b : Byte)
  /-- the operation does not take that operand: no row of the table does this -/
  | badRow (b : Byte)
  deriving DecidableEq, Repr

/-- The operand of a mode from the bytes after the opcode, and the bytes left (R92, R93: low byte first). -/
def takeOperand : Mode → List Byte → Option (Operand × List Byte)
  | .imp, rest => some (.imp, rest)
  | .imm, v :: rest => some (.imm v, rest)
  | .zp0, v :: rest => some (.zp0 v, rest)
  | .zpx, v :: rest => some (.zpx v, rest)
  | .zpy, v :: rest => some (.zpy v, rest)
  | .rel, v :: rest => some (.rel v, rest)
  | .izx, v :: rest => some (.izx v, rest)
  | .izy, v :: rest => some (.izy v, rest)
  | .abs, l :: h :: rest => some (.abs (joinBytes h l), rest)
  | .abx, l :: h :: rest => some (.abx (joinBytes h l), rest)
  | .aby, l :: h :: rest => some (.aby (joinBytes h l), rest)
  | .ind, l :: h :: rest => some (.ind (joinBytes h l), rest)
  | _, _ => none

/-- An operation that branches: built only from a relative operand. -/
def withRel (f : Byte → Instr) : Operand → Option Instr
  | .rel d => some (f d)
  | _ => none

/-- An operation without an operand: built only from the implied one. -/
def withImp (i : Instr) : Operand → Option Instr
  | .imp => some i
  | _ => none

/-- The instruction of a row's operation, the opcode and the operand. -/
def assemble (op : Op) (b : Byte) (o : Operand) : Option Instr :=
  match op with
  | .adc => some (.adc o)
  | .sbc => some (.sbc (b == 0xEB) o)
  | .and => some (.and o)
  | .ora => some (.ora o)
  | .eor => some (.eor o)
  | .bit => some (.bit o)
  | .cmp => some (.cmp o)
  | .cpx => some (.cpx o)
  | .cpy => some (.cpy o)
  | .asl => some (.asl o)
  | .lsr => some (.lsr o)
  | .rol => some (.rol o)
  | .ror => some (.ror o)
  | .inc => some (.inc o)
  | .dec => some (.dec o)
  | .inx => withImp .inx o
  | .iny => withImp .iny o
  | .dex => withImp .dex o
  | .dey => withImp .dey o
  | .lda => some (.lda o)
  | .ldx => some (.ldx o)
  | .ldy => some (.ldy o)
  | .sta => some (.sta o)
  | .stx => some (.stx o)
  | .sty => some (.sty o)
  | .tax => withImp .tax o
  | .tay => withImp .tay o
  | .txa => withImp .txa o
  | .tya => withImp .tya o
  | .tsx => withImp .tsx o
  | .txs => withImp .txs o
  | .pha => withImp .pha o
  | .php => withImp .php o
  | .pla => withImp .pla o
  | .plp => withImp .plp o
  | .clc => withImp .clc o
  | .sec => withImp .sec o
  | .cld => withImp .cld o
  | .sed => withImp .sed o
  | .cli => withImp .cli o
  | .sei => withImp .sei o
  | .clv => withImp .clv o
  | .bpl => withRel .bpl o
  | .bmi => withRel .bmi o
  | .bvc => withRel .bvc o
  | .bvs => withRel .bvs o
  | .bcc => withRel .bcc o
  | .bcs => withRel .bcs o
  | .bne => withRel .bne o
  | .beq => withRel .beq o
  | .jmp => some (.jmp o)
  | .jsr =>
    match o with
    | .abs addr => some (.jsr addr)
    | _ => none
  | .rts => withImp .rts o
  | .rti => withImp .rti o
  | .brk => some (.brk o)
  | .nop => some (.nop b o)
  | .unused => withImp (.unused b) o

/-- The decoder: the instruction at the head of a list of bytes, and the bytes after it (R90, R92 to R94, R98, R122). -/
def decode (p : Params) : List Byte → Except DecodeError (Instr × List Byte)
  | [] => .error .truncated
  | b :: rest =>
    if (tableRow b).op = .unused ∧ p.illegal = .refuse then .error (.illegalOpcode b)
    else
      match takeOperand (rowMode p b) rest with
      | none => .error .truncated
      | some (o, rest') =>
        match assemble (tableRow b).op b o with
        | none => .error (.badRow b)
        | some i => .ok (i, rest')

/-- The `k`-th byte of an instruction word numbered as spec/opcode_table.json numbers it: bit 0 is the least significant bit
of the first byte. -/
def wordByte (w k : Nat) : Byte := BitVec.ofNat 8 (w / 256 ^ k)

/-- The three bytes, opcode first, of a table word of `nbits` bits: the bits above `nbits` are 0. -/
def wordBytes (nbits w : Nat) : List Byte :=
  let v := w % 2 ^ nbits
  [wordByte v 0, wordByte v 1, wordByte v 2]

/-- The instruction the decoder reads from a table word, under the default parameters. -/
def decodeTableWord (nbits w : Nat) : Option Instr :=
  match decode defaultParams (wordBytes nbits w) with
  | .ok (i, _) => some i
  | .error _ => none

/-- The operand bytes as they stand in memory, low byte first (R92). -/
def Operand.bytes : Operand → List Byte
  | .imp => []
  | .imm v => [v]
  | .zp0 v => [v]
  | .zpx v => [v]
  | .zpy v => [v]
  | .rel v => [v]
  | .abs a => [lo a, hi a]
  | .abx a => [lo a, hi a]
  | .aby a => [lo a, hi a]
  | .ind a => [lo a, hi a]
  | .izx v => [v]
  | .izy v => [v]

/-- The opcodes of an operation by mode, from the "Encodings" line of its rule.
NOP and `???` carry their opcode in the instruction, so their lists are empty. -/
def Op.encodings : Op → List (Mode × Byte)
  | .adc => [(.imm, 0x69), (.zp0, 0x65), (.zpx, 0x75), (.abs, 0x6D), (.abx, 0x7D), (.aby, 0x79), (.izx, 0x61), (.izy, 0x71)]
  | .sbc => [(.imm, 0xE9), (.zp0, 0xE5), (.zpx, 0xF5), (.abs, 0xED), (.abx, 0xFD), (.aby, 0xF9), (.izx, 0xE1), (.izy, 0xF1)]
  | .and => [(.imm, 0x29), (.zp0, 0x25), (.zpx, 0x35), (.abs, 0x2D), (.abx, 0x3D), (.aby, 0x39), (.izx, 0x21), (.izy, 0x31)]
  | .ora => [(.imm, 0x09), (.zp0, 0x05), (.zpx, 0x15), (.abs, 0x0D), (.abx, 0x1D), (.aby, 0x19), (.izx, 0x01), (.izy, 0x11)]
  | .eor => [(.imm, 0x49), (.zp0, 0x45), (.zpx, 0x55), (.abs, 0x4D), (.abx, 0x5D), (.aby, 0x59), (.izx, 0x41), (.izy, 0x51)]
  | .bit => [(.zp0, 0x24), (.abs, 0x2C)]
  | .cmp => [(.imm, 0xC9), (.zp0, 0xC5), (.zpx, 0xD5), (.abs, 0xCD), (.abx, 0xDD), (.aby, 0xD9), (.izx, 0xC1), (.izy, 0xD1)]
  | .cpx => [(.imm, 0xE0), (.zp0, 0xE4), (.abs, 0xEC)]
  | .cpy => [(.imm, 0xC0), (.zp0, 0xC4), (.abs, 0xCC)]
  | .asl => [(.imp, 0x0A), (.zp0, 0x06), (.zpx, 0x16), (.abs, 0x0E), (.abx, 0x1E)]
  | .lsr => [(.imp, 0x4A), (.zp0, 0x46), (.zpx, 0x56), (.abs, 0x4E), (.abx, 0x5E)]
  | .rol => [(.imp, 0x2A), (.zp0, 0x26), (.zpx, 0x36), (.abs, 0x2E), (.abx, 0x3E)]
  | .ror => [(.imp, 0x6A), (.zp0, 0x66), (.zpx, 0x76), (.abs, 0x6E), (.abx, 0x7E)]
  | .inc => [(.zp0, 0xE6), (.zpx, 0xF6), (.abs, 0xEE), (.abx, 0xFE)]
  | .dec => [(.zp0, 0xC6), (.zpx, 0xD6), (.abs, 0xCE), (.abx, 0xDE)]
  | .inx => [(.imp, 0xE8)]
  | .iny => [(.imp, 0xC8)]
  | .dex => [(.imp, 0xCA)]
  | .dey => [(.imp, 0x88)]
  | .lda => [(.imm, 0xA9), (.zp0, 0xA5), (.zpx, 0xB5), (.abs, 0xAD), (.abx, 0xBD), (.aby, 0xB9), (.izx, 0xA1), (.izy, 0xB1)]
  | .ldx => [(.imm, 0xA2), (.zp0, 0xA6), (.zpy, 0xB6), (.abs, 0xAE), (.aby, 0xBE)]
  | .ldy => [(.imm, 0xA0), (.zp0, 0xA4), (.zpx, 0xB4), (.abs, 0xAC), (.abx, 0xBC)]
  | .sta => [(.zp0, 0x85), (.zpx, 0x95), (.abs, 0x8D), (.abx, 0x9D), (.aby, 0x99), (.izx, 0x81), (.izy, 0x91)]
  | .stx => [(.zp0, 0x86), (.zpy, 0x96), (.abs, 0x8E)]
  | .sty => [(.zp0, 0x84), (.zpx, 0x94), (.abs, 0x8C)]
  | .tax => [(.imp, 0xAA)]
  | .tay => [(.imp, 0xA8)]
  | .txa => [(.imp, 0x8A)]
  | .tya => [(.imp, 0x98)]
  | .tsx => [(.imp, 0xBA)]
  | .txs => [(.imp, 0x9A)]
  | .pha => [(.imp, 0x48)]
  | .php => [(.imp, 0x08)]
  | .pla => [(.imp, 0x68)]
  | .plp => [(.imp, 0x28)]
  | .clc => [(.imp, 0x18)]
  | .sec => [(.imp, 0x38)]
  | .cld => [(.imp, 0xD8)]
  | .sed => [(.imp, 0xF8)]
  | .cli => [(.imp, 0x58)]
  | .sei => [(.imp, 0x78)]
  | .clv => [(.imp, 0xB8)]
  | .bpl => [(.rel, 0x10)]
  | .bmi => [(.rel, 0x30)]
  | .bvc => [(.rel, 0x50)]
  | .bvs => [(.rel, 0x70)]
  | .bcc => [(.rel, 0x90)]
  | .bcs => [(.rel, 0xB0)]
  | .bne => [(.rel, 0xD0)]
  | .beq => [(.rel, 0xF0)]
  | .jmp => [(.abs, 0x4C), (.ind, 0x6C)]
  | .jsr => [(.abs, 0x20)]
  | .rts => [(.imp, 0x60)]
  | .rti => [(.imp, 0x40)]
  | .brk => [(.imp, 0x00), (.imm, 0x00)]
  | .nop => []
  | .unused => []

/-- The opcode of an instruction, where it has one. -/
def Instr.opcode : Instr → Option Byte
  | .sbc true _ => some 0xEB
  | .nop code _ => some code
  | .unused code => some code
  | i => i.op.encodings.lookup i.mode

/-- The encoder: the bytes of a well-formed instruction (of an ill-formed one without an opcode, none). -/
def encode (i : Instr) : List Byte :=
  match i.opcode with
  | some b => b :: i.operand.bytes
  | none => []

end Sys2Proof
end

