-- ==== Sys2Proof/Machine/State.lean ====
section
/-! DEFINITION. The state of the machine as plain data, the reasons to stop, and the state after reset. -/

namespace Sys2Proof.Machine

/-- What the host has done so far (20_memory.md R61, 10_state.md R39): no bus connected, connected but never reset, or reset. -/
inductive BootStage where
  | noBus
  | noReset
  | live
  deriving DecidableEq, Repr

/-- The flags of P by name (10_state.md R27). -/
inductive Flag where
  | c | z | i | d | b | u | v | n
  deriving DecidableEq, Repr

/-- Everything the spec gives the machine. The tag `mode` is a function of `opcode` and the parameters (R32), so it has no field
(`State.mode`). The accessors of A, X, Y, S and PC (R31) are the fields themselves, read in every state, before a bus is connected
too: DESIGN CHOICE, log 25. -/
@[ext]
structure State where
  /-- accumulator A (R21) -/
  a : Byte
  /-- index register X (R22) -/
  x : Byte
  /-- index register Y (R23) -/
  y : Byte
  /-- stack pointer S (R24) -/
  sp : Byte
  /-- status register P (R26, R27) -/
  p : Byte
  /-- program counter PC (R25) -/
  pc : Addr
  /-- latch: the last-fetched operand byte (R32, 00_scope.md R11) -/
  fetched : Byte
  /-- latch: the 16-bit scratch result (R32, R11) -/
  temp : Addr
  /-- latch: the computed absolute address (R32, R11) -/
  addrAbs : Addr
  /-- latch: the sign-extended relative address (R32, R11) -/
  addrRel : Addr
  /-- latch: the current opcode (R32, R11) -/
  opcode : Byte
  /-- the cycle countdown, a natural number (R35) -/
  countdown : Nat
  /-- the free-running total cycle counter, a natural number (R36) -/
  clockCount : Nat
  /-- what is connected to the bus, with its contents (R61, R62) -/
  bus : Bus
  /-- what the host has done so far (R61, R39) -/
  boot : BootStage
  deriving DecidableEq, Repr

/-- The faults of this hardware: none. "The core raises no synchronous exceptions" (60_exceptions.md R370), no address is
invalid (20_memory.md R60), no row of the table traps (30_encoding.md R99). -/
inductive Fault where
  deriving DecidableEq, Repr

/-- The reasons the model has no step. -/
inductive Refusal where
  /-- raised by an arm of `exec` without a meaning; no arm is left so. Safe. -/
  | notModelled (mnemonic : String)
  /-- raised by every host call but `connect_bus` before a bus is connected (R61; for the host's own reads and writes of the bus,
  log 13). Safe: the spec asks for it. -/
  | busNotConnected
  /-- raised by `clock()`, `irq()` and `nmi()` before the first `reset()` (R39, R412). Safe: the spec asks for it. -/
  | notYetReset
  /-- raised by the clock under `ILLEGAL_OPCODE_POLICY = refuse` at a `???` row (R98), never under the default. Safe. -/
  | illegalOpcode (b : Byte)
  /-- raised by the clock where the fetched bytes hold no instruction for another reason. That never happens (R99):
  `Obligations.EveryOpcodeDecodes` and `Obligations.LiveCoreNeverStops` state it. Safe. -/
  | undecodable
  deriving DecidableEq, Repr

/-- The answer of a meaning and of a step. -/
abbrev Result := Host.Outcome State Fault Refusal

/-- The machine right after `reset()` on a bus of zeros (10_state.md R38, 70_reset_and_hazards.md R410): PC is the word at
0xFFFC, here 0. `clock_count` is the one item `reset()` does not set. DESIGN CHOICE 0: log 12. -/
def State.reset : State where
  a := 0x00
  x := 0x00
  y := 0x00
  sp := 0xFD
  p := 0x20
  pc := 0x0000
  fetched := 0
  temp := 0
  addrAbs := 0
  addrRel := 0
  opcode := 0
  countdown := 8
  clockCount := 0
  bus := .ram []
  boot := .live

end Sys2Proof.Machine
end

