-- ==== Sys2Proof/Machine/Flags.lean ====
section
/-! DEFINITION. The status register's fields and every flag and ALU computation of the spec. -/

namespace Sys2Proof.Machine

/-- The bit position of a flag in P (10_state.md R27). -/
def Flag.index : Flag → Nat
  | .c => 0
  | .z => 1
  | .i => 2
  | .d => 3
  | .b => 4
  | .u => 5
  | .v => 6
  | .n => 7

/-- The flag's mask (R27). -/
def Flag.mask (f : Flag) : Byte := 1#8 <<< f.index

/-- One flag of a status byte (R27). -/
def getFlag (f : Flag) (p : Byte) : Bool := p.getLsbD f.index

/-- A status byte with one flag replaced. -/
def putFlag (f : Flag) (value : Bool) (p : Byte) : Byte :=
  if value then p ||| f.mask else p &&& ~~~f.mask

/-- The accessor `flag(f)`: the bit stored in P (R31). Like the accessors of A, X, Y, S and PC, which are the fields of `State`, it
answers in every state, before a bus is connected too: DESIGN CHOICE, log 25. -/
def State.flag (s : State) (f : Flag) : Bool := getFlag f s.p

/-- `P.f <- value` (R10). -/
def State.setFlag (f : Flag) (value : Bool) (s : State) : State := { s with p := putFlag f value s.p }

/-- `NZ(v)`: Z says that `v` is 0, N is bit 7 of `v` (R10, R29). -/
def State.nz (v : Byte) (s : State) : State := (s.setFlag .z (v == 0)).setFlag .n v.msb

/-- The carry flag as a 16-bit number. -/
def carryIn (c : Bool) : Addr := if c then 1 else 0

/-- The 16-bit sum of ADC and SBC (41_alu_arith_logic.md R161, R162). -/
def sumTemp (a value : Byte) (c : Bool) : Addr := zext16 a + zext16 value + carryIn c

/-- ADC's carry: `temp > 0x00FF` (R161). -/
def adcCarry (t : Addr) : Bool := decide (t > 0x00FF#16)

/-- SBC's carry: `(temp & 0xFF00) != 0` (R162; 90_conflicts.md C3). -/
def sbcCarry (t : Addr) : Bool := t &&& 0xFF00#16 != 0#16

/-- The overflow of ADC and SBC: `((~(A ^ value) & (A ^ temp)) & 0x0080) != 0` (R161, R162). -/
def sumOverflow (a value : Byte) (t : Addr) : Bool :=
  (~~~(zext16 a ^^^ zext16 value) &&& (zext16 a ^^^ t)) &&& 0x0080#16 != 0#16

/-- The 16-bit difference of a compare: `(R - M) mod 65536` (R167). -/
def compareTemp (r m : Byte) : Addr := zext16 r - zext16 m

/-- A compare's carry: `R >= M` as unsigned numbers (R167). -/
def compareCarry (r m : Byte) : Bool := decide (m ≤ r)

/-- ASL: `M << 1` in 16 bits (42_shift_incdec.md R201). -/
def aslTemp (m : Byte) : Addr := zext16 m <<< 1

/-- LSR: `M >> 1` (R202). -/
def lsrTemp (m : Byte) : Addr := zext16 m >>> 1

/-- ROL: `(M << 1) | C` (R203). -/
def rolTemp (c : Bool) (m : Byte) : Addr := (zext16 m <<< 1) ||| carryIn c

/-- ROR: `(C << 7) | (M >> 1)` (R204). -/
def rorTemp (c : Bool) (m : Byte) : Addr := (carryIn c <<< 7) ||| (zext16 m >>> 1)

/-- INC: `M + 1` in 16 bits (R205). -/
def incTemp (m : Byte) : Addr := zext16 m + 1

/-- DEC: `(M - 1) mod 65536` (R206). -/
def decTemp (m : Byte) : Addr := zext16 m - 1

/-- The status byte PHP stacks: `P | 0x10 | 0x20` (44_stack_flags.md R281). -/
def phpByte (p : Byte) : Byte := p ||| 0x10#8 ||| 0x20#8

/-- The status PLP loads: the byte with U forced to 1 (R283). -/
def plpStatus (v : Byte) : Byte := putFlag .u true v

/-- The status RTI loads: the byte with B and U cleared (45_control_transfer.md R332). -/
def rtiStatus (v : Byte) : Byte := putFlag .u false (putFlag .b false v)

end Sys2Proof.Machine
end

