-- ==== Sys2Proof/Machine/Ops.lean ====
section
/-! DEFINITION. The named operations over memory and registers: the bus, the stack, the start and the end of an instruction,
the interrupt entry and the return from it, and the reset sequence. A read of the bus is two definitions: the byte it returns
(`read`) and what it leaves (`afterRead`), which on the RAM is nothing new (20_memory.md R62, R69). -/

namespace Sys2Proof.Machine

/-! ### Memory -/

/-- What an address without an entry reads as: "initially zero" (20_memory.md R62). -/
def emptyByte : Byte := 0

/-- The byte listed for a key, or `emptyByte`. -/
def Memory.lookup : Memory → Nat → Byte
  | [], _ => emptyByte
  | (k, v) :: rest, n => if k = n then v else Memory.lookup rest n

/-- The list without the entries of a key. -/
def Memory.remove : Memory → Nat → Memory
  | [], _ => []
  | (k, v) :: rest, n => if k = n then Memory.remove rest n else (k, v) :: Memory.remove rest n

/-- The list with one entry more, before the first larger key. -/
def Memory.place : Memory → Nat → Byte → Memory
  | [], n, v => [(n, v)]
  | (k, w) :: rest, n, v => if n < k then (n, v) :: (k, w) :: rest else (k, w) :: Memory.place rest n v

/-- `read(a)` of the RAM bus (R60, R62). -/
def Memory.read (m : Memory) (a : Addr) : Byte := Memory.lookup m a.toNat

/-- `write(a, v)` of the RAM bus (R60, R62). -/
def Memory.write (m : Memory) (a : Addr) (v : Byte) : Memory :=
  if v = emptyByte then Memory.remove m a.toNat else Memory.place (Memory.remove m a.toNat) a.toNat v

/-- The canonical form from a lowest key on: rising keys below 65536, no entry that reads as an unlisted address does. -/
def Memory.wfFrom : Nat → Memory → Bool
  | _, [] => true
  | low, (k, v) :: rest => decide (low ≤ k) && decide (k < 65536) && (v != emptyByte) && Memory.wfFrom (k + 1) rest

/-- The canonical form: equal memories are equal lists. -/
def Memory.wf (m : Memory) : Bool := Memory.wfFrom 0 m

/-- `read(a)`: the byte it returns (R60). -/
def Bus.read : Bus → Addr → Byte
  | .ram m, a => m.read a
  | .host pair calls, a => Config.hostReply pair calls a

/-- `read(a)`: what it leaves. It changes nothing on the RAM (R62); a host-supplied pair has been called once more (R8). -/
def Bus.afterRead : Bus → Addr → Bus
  | .ram m, _ => .ram m
  | .host pair calls, a => .host pair (.read a (Config.hostReply pair calls a) :: calls)

/-- `write(a, v)` (R60). -/
def Bus.write : Bus → Addr → Byte → Bus
  | .ram m, a, v => .ram (m.write a v)
  | .host pair calls, a, v => .host pair (.write a v :: calls)

/-- The RAM of a bus is in canonical form; a host-supplied pair has no form to keep. -/
def Bus.wf : Bus → Bool
  | .ram m => m.wf
  | .host _ _ => true

/-- `MemRead(a, 1)` (00_scope.md R10): the byte. -/
def State.read (s : State) (a : Addr) : Byte := s.bus.read a

/-- `MemRead(a, 1)` (R10): the state it leaves. -/
def State.afterRead (a : Addr) (s : State) : State := { s with bus := s.bus.afterRead a }

/-- `MemWrite(a, 1, v)` (R10). -/
def State.write (a : Addr) (v : Byte) (s : State) : State := { s with bus := s.bus.write a v }

/-- The state after reads at some addresses, in order. -/
def State.afterReads : List Addr → State → State
  | [], s => s
  | a :: rest, s => State.afterReads rest (s.afterRead a)

/-- The word whose low byte is read first, at `low`, and whose high byte is read then, at `high` (R64). -/
def State.readPair (s : State) (low high : Addr) : Addr := joinBytes ((s.afterRead low).read high) (s.read low)

/-- The little-endian word at an address (R64). -/
def State.readWord (s : State) (a : Addr) : Addr := s.readPair a (a + 1)

/-- The bytes that `n` reads at rising addresses return; addresses wrap modulo 65536 (10_state.md R25, R40). -/
def State.bytesFrom : Nat → Addr → State → List Byte
  | 0, _, _ => []
  | n + 1, a, s => s.read a :: State.bytesFrom n (a + 1) (s.afterRead a)

/-! ### Registers -/

/-- `A <- v` (R10). -/
def State.setA (v : Byte) (s : State) : State := { s with a := v }

/-- `X <- v` (R10). -/
def State.setX (v : Byte) (s : State) : State := { s with x := v }

/-- `Y <- v` (R10). -/
def State.setY (v : Byte) (s : State) : State := { s with y := v }

/-- `S <- v` (R10). -/
def State.setSp (v : Byte) (s : State) : State := { s with sp := v }

/-- `P <- v` (R10). -/
def State.setP (v : Byte) (s : State) : State := { s with p := v }

/-- `PC <- v` (R10). -/
def State.setPc (v : Addr) (s : State) : State := { s with pc := v }

/-- `fetched <- v` (R11). -/
def State.setFetched (v : Byte) (s : State) : State := { s with fetched := v }

/-- `temp <- v` (R11). -/
def State.setTemp (v : Addr) (s : State) : State := { s with temp := v }

/-- `addr_abs <- v` (R11). -/
def State.setAddrAbs (v : Addr) (s : State) : State := { s with addrAbs := v }

/-- `addr_rel <- v` (R11). -/
def State.setAddrRel (v : Addr) (s : State) : State := { s with addrRel := v }

/-- `countdown <- countdown + n` (40_fetch_and_addressing.md R121). -/
def State.addCycles (n : Nat) (s : State) : State := { s with countdown := s.countdown + n }

/-- The mode tag, a function of the opcode latch under the parameters (10_state.md R32). -/
def State.mode (p : Params) (s : State) : Mode := rowMode p s.opcode

/-! ### Stack -/

/-- The effective stack address, `0x0100 + S` (R24). -/
def stackAddr (sp : Byte) : Addr := 0x0100#16 + zext16 sp

/-- `Push(v)`: write, then decrement S (R66). PRESUMED order (the spec's D12): log 8. -/
def State.push (v : Byte) (s : State) : State := (s.write (stackAddr s.sp) v).setSp (s.sp - 1)

/-- `Pop()`: the byte it returns, read at `0x0100 + S` after the increment (R67). PRESUMED order (D12): log 8. -/
def State.pulled (s : State) : Byte := s.read (stackAddr (s.sp + 1))

/-- `Pop()`: the state it leaves, S incremented and the byte read (R67). PRESUMED order (D12): log 8. -/
def State.pull (s : State) : State := (s.setSp (s.sp + 1)).afterRead (stackAddr (s.sp + 1))

/-- Push of a 16-bit value: high byte, then low byte (45_control_transfer.md R330, R374). -/
def State.pushWord (v : Addr) (s : State) : State := (s.push (hi v)).push (lo v)

/-- The word that popping the low byte and then the high byte gives (R331). -/
def State.pulledWord (s : State) : Addr := joinBytes s.pull.pulled s.pulled

/-! ### The tick -/

/-- The number of ticks `reset()` takes (R7). -/
def resetCycles : Nat := 8

/-- The number of ticks an IRQ entry takes (R7). -/
def irqCycles : Nat := 7

/-- The number of ticks an NMI entry takes (R7). -/
def nmiCycles : Nat := 8

/-- Steps 1 to 4 of `StartInstruction`: read and latch the opcode, force U, advance PC past the opcode, load the base cycles
(R121). -/
def State.beginInstruction (s : State) : State :=
  let b := s.read s.pc
  { s with opcode := b, p := putFlag .u true s.p, pc := s.pc + 1, countdown := (tableRow b).baseCycles,
           bus := s.bus.afterRead s.pc }

/-- Steps 7 and 8: the extra cycle, then U forced again (R121, R123). -/
def State.finish (extra : Bool) (s : State) : State := (s.addCycles (if extra then 1 else 0)).setFlag .u true

/-- The end of every `clock()`: count the tick (R120). -/
def State.tick (s : State) : State := { s with clockCount := s.clockCount + 1, countdown := s.countdown - 1 }

/-- The bytes of the instruction at PC: the opcode and as many operand bytes as its row has (R92, R94). They are what the reads
return; the reads themselves are made where the rules make them, the opcode's by `beginInstruction`, the operand's by the mode and
by `fetch()` (log 14). -/
def State.instructionBytes (p : Params) (s : State) : List Byte := s.bytesFrom (lengthOf p (s.read s.pc)) s.pc

/-! ### Interrupts -/

/-- The NMI vector (R70). -/
def nmiVector : Addr := 0xFFFA

/-- The reset vector (R70). -/
def resetVector : Addr := 0xFFFC

/-- The IRQ and BRK vector (R70). -/
def irqVector : Addr := 0xFFFE

/-- Taking an interrupt, shared by `irq()`, `nmi()` and BRK (R374, R333): push PC high then low; set I; push P with B as
`stackedB` says; clear B; PC from the vector. The caller of a hardware entry forces U before it, which commutes with the
pushes of PC. DEDUCED: log 21. -/
def State.takeInterrupt (vector : Addr) (stackedB : Bool) (s : State) : State :=
  let s1 := ((s.pushWord s.pc).setFlag .i true).setFlag .b stackedB
  let s2 := (s1.push s1.p).setFlag .b false
  (s2.afterReads [vector, vector + 1]).setPc (s2.readWord vector)

/-- The entry sequence of a hardware interrupt with its countdown (R374). -/
def State.entry (vector : Addr) (cycles : Nat) (s : State) : State :=
  { (s.setFlag .u true).takeInterrupt vector false with countdown := cycles }

/-- `irq()` (R372): dropped while I is 1. -/
def State.irq (s : State) : State := if s.flag .i then s else s.entry irqVector irqCycles

/-- `nmi()` (R373). -/
def State.nmi (s : State) : State := s.entry nmiVector nmiCycles

/-- The return from an interrupt (RTI, R332, R378): P from the stack with B and U cleared, then PC low and high. -/
def State.returnFromInterrupt (s : State) : State :=
  let s1 := s.pull.setP (rtiStatus s.pulled)
  s1.pull.pull.setPc s1.pulledWord

/-- `reset()` (70_reset_and_hazards.md R410). -/
def State.resetSequence (s : State) : State :=
  { a := 0x00, x := 0x00, y := 0x00, sp := 0xFD, p := 0x20, pc := s.readWord resetVector,
    fetched := 0, temp := 0, addrAbs := 0, addrRel := 0, opcode := 0,
    countdown := resetCycles, clockCount := s.clockCount,
    bus := (s.afterReads [resetVector, resetVector + 1]).bus, boot := .live }

/-- The machine right after `reset()` on the parameter `BUS` (R8, R61, R410); `State.reset` is its value under the defaults. -/
def State.resetWith (p : Params) : State := ({ State.reset with bus := p.bus }).resetSequence

end Sys2Proof.Machine
end

