-- ==== Sys2Proof/Machine/Operands.lean ====
section
/-! DEFINITION. The addressing-mode evaluator and the operand read (40_fetch_and_addressing.md R130 to R145). In every
definition the state's PC is the address of the byte after the opcode. -/

namespace Sys2Proof.Machine

/-- Where IND reads its high byte: one address on, but a pointer at the end of a page takes it from the start of the same page
(R139). -/
def indirectHigh (ptr : Addr) : Addr := if lo ptr = 0xFF then ptr &&& 0xFF00#16 else ptr + 1

/-- The addresses a mode reads: its operand bytes at rising PC, then its pointer, low byte first (20_memory.md R69, R130 to R141).
IMP and IMM read nothing (R130, R131); both bytes of a zero-page pointer are in page 0 (R140, R141; PRESUMED for IZY, the spec's
D11: log 10). -/
def State.modeReads (s : State) (o : Operand) : List Addr :=
  match o with
  | .imp | .imm _ => []
  | .zp0 _ | .zpx _ | .zpy _ | .rel _ => [s.pc]
  | .abs _ | .abx _ | .aby _ => [s.pc, s.pc + 1]
  | .ind ptr => [s.pc, s.pc + 1, ptr, indirectHigh ptr]
  | .izx z => [s.pc, zext16 (z + s.x), zext16 (z + s.x + 1)]
  | .izy z => [s.pc, zext16 z, zext16 (z + 1)]

/-- The word at the pointer of IND, read after its two operand bytes (R139). -/
def State.indirectWord (s : State) (ptr : Addr) : Addr :=
  (s.afterReads [s.pc, s.pc + 1]).readPair ptr (indirectHigh ptr)

/-- The word at a zero-page pointer, read after the operand byte (R140, R141). -/
def State.zeroPageWord (s : State) (z : Byte) : Addr := (s.afterRead s.pc).readPair (zext16 z) (zext16 (z + 1))

/-- The address a mode leaves in `addr_abs` (R131 to R134, R136 to R141).
IMP and REL compute none and leave the latch as it is (R130, R135). -/
def State.target (s : State) (o : Operand) : Addr :=
  match o with
  | .imp => s.addrAbs
  | .imm _ => s.pc
  | .zp0 z => zext16 z
  | .zpx z => zext16 (z + s.x)
  | .zpy z => zext16 (z + s.y)
  | .rel _ => s.addrAbs
  | .abs a => a
  | .abx a => a + zext16 s.x
  | .aby a => a + zext16 s.y
  | .ind ptr => s.indirectWord ptr
  | .izx z => s.zeroPageWord (z + s.x)
  | .izy z => s.zeroPageWord z + zext16 s.y

/-- The mode hint: an indexed address on another page than its base (R137, R138, R141). -/
def State.crosses (s : State) (o : Operand) : Bool :=
  match o with
  | .abx a => hi (a + zext16 s.x) != hi a
  | .aby a => hi (a + zext16 s.y) != hi a
  | .izy z => hi (s.zeroPageWord z + zext16 s.y) != hi (s.zeroPageWord z)
  | .imp | .imm _ | .zp0 _ | .zpx _ | .zpy _ | .rel _ | .abs _ | .ind _ | .izx _ => false

/-- PC after the mode has advanced it past its operand bytes (R130 to R141). -/
def State.nextPc (s : State) (o : Operand) : Addr := s.pc + BitVec.ofNat 16 o.mode.operandBytes

/-- The state after the reads of a mode. -/
def State.afterMode (o : Operand) (s : State) : State := s.afterReads (s.modeReads o)

/-- The evaluation of a mode: its reads, its latch and PC (R130 to R141). The operand bytes are the decoded ones, which are what
the reads return when the instruction comes from the bus. DEDUCED: log 14. -/
def State.address (o : Operand) (s : State) : State :=
  match o with
  | .imp => s.setFetched s.a
  | .rel d => ((s.afterMode o).setAddrRel (sext16 d)).setPc (s.nextPc o)
  | .imm _ | .zp0 _ | .zpx _ | .zpy _ | .abs _ | .abx _ | .aby _ | .ind _ | .izx _ | .izy _ =>
    ((s.afterMode o).setAddrAbs (s.target o)).setPc (s.nextPc o)

/-- `fetch()` after the mode's evaluation: the byte at `addr_abs`, but in IMP mode no read (R145). An immediate's byte is the
decoded one, which is what its read returns when the instruction comes from the bus. DEDUCED: log 14. -/
def State.fetch (o : Operand) (s : State) : State :=
  match o with
  | .imp => s
  | .imm v => (s.afterRead s.addrAbs).setFetched v
  | .zp0 _ | .zpx _ | .zpy _ | .rel _ | .abs _ | .abx _ | .aby _ | .ind _ | .izx _ | .izy _ =>
    (s.afterRead s.addrAbs).setFetched (s.read s.addrAbs)

/-- The byte `fetch()` returns, as a function of the state before the mode's evaluation. -/
def State.operandValue (s : State) (o : Operand) : Byte :=
  match o with
  | .imp => s.a
  | .imm v => v
  | .zp0 _ | .zpx _ | .zpy _ | .rel _ | .abs _ | .abx _ | .aby _ | .ind _ | .izx _ | .izy _ =>
    (s.afterMode o).read (s.target o)

/-- `WriteBack(r)`: the accumulator in IMP mode, else one bus write at `addr_abs` (42_shift_incdec.md R200). -/
def State.writeBack (o : Operand) (r : Byte) (s : State) : State :=
  match o with
  | .imp => s.setA r
  | .imm _ | .zp0 _ | .zpx _ | .zpy _ | .rel _ | .abs _ | .abx _ | .aby _ | .ind _ | .izx _ | .izy _ =>
    s.write s.addrAbs r

/-- Steps 5 to 8 of `StartInstruction`: the mode, the operation, the extra cycle if both hints are 1, U forced (R121, R123). -/
def State.runOperation (o : Operand) (hint : Bool) (operation : State → State) (s : State) : State :=
  (operation (s.address o)).finish (s.crosses o && hint)

end Sys2Proof.Machine
end

