-- ==== Sys2Proof/Machine/Alu.lean ====
section
/-! DEFINITION. Arithmetic, logic, bit test and compare (41_alu_arith_logic.md). D is read by none of them (R160). -/

namespace Sys2Proof.Machine

/-- The addition ADC and SBC share, after `fetch()`: `temp`, C, V, Z, N, then A (R161, R162). -/
def State.addCore (value : Byte) (carryOut : Addr → Bool) (s : State) : State :=
  let t := sumTemp s.a value (s.flag .c)
  ((((s.setTemp t).setFlag .c (carryOut t)).setFlag .v (sumOverflow s.a value t)).nz (lo t)).setA (lo t)

/-- The step AND, ORA and EOR share: A and its Z and N (R163 to R165). -/
def State.setAccumulator (r : Byte) (s : State) : State := (s.setA r).nz r

/-- The comparison CMP, CPX and CPY share: `temp`, C, Z, N (R167 to R169). -/
def State.compare (r : Byte) (s : State) : State :=
  let t := compareTemp r s.fetched
  ((s.setTemp t).setFlag .c (compareCarry r s.fetched)).nz (lo t)

/-- BIT after `fetch()`: `temp`, Z from A and M, N and V from M (R166). -/
def State.bitTest (s : State) : State :=
  let t := zext16 (s.a &&& s.fetched)
  (((s.setTemp t).setFlag .z (lo t == 0)).setFlag .n (s.fetched.getLsbD 7)).setFlag .v (s.fetched.getLsbD 6)

/-- ADC (R161). -/
def execAdc (o : Operand) (s : State) : Result :=
  .next (s.runOperation o true fun s => let s := s.fetch o; s.addCore s.fetched adcCarry)

/-- SBC (R162), the row 0xEB like 0xE9 (R97). -/
def execSbc (_viaEB : Bool) (o : Operand) (s : State) : Result :=
  .next (s.runOperation o true fun s => let s := s.fetch o; s.addCore (s.fetched ^^^ 0xFF#8) sbcCarry)

/-- AND (R163). -/
def execAnd (o : Operand) (s : State) : Result :=
  .next (s.runOperation o true fun s => let s := s.fetch o; s.setAccumulator (s.a &&& s.fetched))

/-- ORA (R164). -/
def execOra (o : Operand) (s : State) : Result :=
  .next (s.runOperation o true fun s => let s := s.fetch o; s.setAccumulator (s.a ||| s.fetched))

/-- EOR (R165). -/
def execEor (o : Operand) (s : State) : Result :=
  .next (s.runOperation o true fun s => let s := s.fetch o; s.setAccumulator (s.a ^^^ s.fetched))

/-- BIT (R166). -/
def execBit (o : Operand) (s : State) : Result :=
  .next (s.runOperation o false fun s => (s.fetch o).bitTest)

/-- CMP (R167). -/
def execCmp (o : Operand) (s : State) : Result :=
  .next (s.runOperation o true fun s => (s.fetch o).compare s.a)

/-- CPX (R168). -/
def execCpx (o : Operand) (s : State) : Result :=
  .next (s.runOperation o false fun s => (s.fetch o).compare s.x)

/-- CPY (R169). -/
def execCpy (o : Operand) (s : State) : Result :=
  .next (s.runOperation o false fun s => (s.fetch o).compare s.y)

end Sys2Proof.Machine
end

