-- ==== Sys2Proof/Machine/Control.lean ====
section
/-! DEFINITION. Branches, jumps, subroutines, BRK, NOP and the unused rows (45_control_transfer.md). -/

namespace Sys2Proof.Machine

/-- `Branch(cond)` after the REL mode (R320): one cycle more if taken, another if the target is on another page than the next
instruction, and PC from `addr_abs`. -/
def State.branch (cond : Bool) (s : State) : State :=
  if cond then
    let target := s.pc + s.addrRel
    ((s.setAddrAbs target).addCycles (if hi target != hi s.pc then 2 else 1)).setPc target
  else s

/-- BPL (R321). -/
def execBpl (d : Byte) (s : State) : Result :=
  .next (s.runOperation (.rel d) false fun s => s.branch (s.flag .n == false))

/-- BMI (R322). -/
def execBmi (d : Byte) (s : State) : Result :=
  .next (s.runOperation (.rel d) false fun s => s.branch (s.flag .n == true))

/-- BVC (R323). -/
def execBvc (d : Byte) (s : State) : Result :=
  .next (s.runOperation (.rel d) false fun s => s.branch (s.flag .v == false))

/-- BVS (R324). -/
def execBvs (d : Byte) (s : State) : Result :=
  .next (s.runOperation (.rel d) false fun s => s.branch (s.flag .v == true))

/-- BCC (R325). -/
def execBcc (d : Byte) (s : State) : Result :=
  .next (s.runOperation (.rel d) false fun s => s.branch (s.flag .c == false))

/-- BCS (R326). -/
def execBcs (d : Byte) (s : State) : Result :=
  .next (s.runOperation (.rel d) false fun s => s.branch (s.flag .c == true))

/-- BNE (R327). -/
def execBne (d : Byte) (s : State) : Result :=
  .next (s.runOperation (.rel d) false fun s => s.branch (s.flag .z == false))

/-- BEQ (R328). -/
def execBeq (d : Byte) (s : State) : Result :=
  .next (s.runOperation (.rel d) false fun s => s.branch (s.flag .z == true))

/-- JMP (R329). -/
def execJmp (o : Operand) (s : State) : Result :=
  .next (s.runOperation o false fun s => s.setPc s.addrAbs)

/-- JSR (R330): the pushed word is the address of its own last byte. -/
def execJsr (addr : Addr) (s : State) : Result :=
  .next (s.runOperation (.abs addr) false fun s => (s.pushWord (s.pc - 1)).setPc s.addrAbs)

/-- RTS (R331). -/
def execRts (s : State) : Result :=
  .next (s.runOperation .imp false fun s => s.pull.pull.setPc (s.pulledWord + 1))

/-- RTI (R332). -/
def execRti (s : State) : Result :=
  .next (s.runOperation .imp false fun s => s.returnFromInterrupt)

/-- BRK (R333): PC skips one byte more, then the interrupt is taken with B stacked as 1. -/
def execBrk (o : Operand) (s : State) : Result :=
  .next (s.runOperation o false fun s => (s.setPc (s.pc + 1)).takeInterrupt irqVector true)

/-- The NOP rows that return hint 1 (R146, R334). -/
def nopHint (code : Byte) : Bool := [0x1C, 0x3C, 0x5C, 0x7C, 0xDC, 0xFC].contains code

/-- NOP (R334): only the PC advance of its mode. -/
def execNop (code : Byte) (o : Operand) (s : State) : Result :=
  .next (s.runOperation o (nopHint code) fun s => s)

/-- `???` (R335): no effect, no extra cycle. -/
def execUnused (_code : Byte) (s : State) : Result :=
  .next (s.runOperation .imp false fun s => s)

end Sys2Proof.Machine
end

