-- ==== Sys2Proof/Machine/LoadStore.lean ====
section
/-! DEFINITION. Loads, stores and register transfers (43_load_store_transfer.md). -/

namespace Sys2Proof.Machine

/-- LDA (R240). -/
def execLda (o : Operand) (s : State) : Result :=
  .next (s.runOperation o true fun s => let s := s.fetch o; (s.setA s.fetched).nz s.fetched)

/-- LDX (R241). -/
def execLdx (o : Operand) (s : State) : Result :=
  .next (s.runOperation o true fun s => let s := s.fetch o; (s.setX s.fetched).nz s.fetched)

/-- LDY (R242). -/
def execLdy (o : Operand) (s : State) : Result :=
  .next (s.runOperation o true fun s => let s := s.fetch o; (s.setY s.fetched).nz s.fetched)

/-- STA (R243): no read of the target, no flag, no extra cycle. -/
def execSta (o : Operand) (s : State) : Result :=
  .next (s.runOperation o false fun s => s.write s.addrAbs s.a)

/-- STX (R244). -/
def execStx (o : Operand) (s : State) : Result :=
  .next (s.runOperation o false fun s => s.write s.addrAbs s.x)

/-- STY (R245). -/
def execSty (o : Operand) (s : State) : Result :=
  .next (s.runOperation o false fun s => s.write s.addrAbs s.y)

/-- TAX (R246). -/
def execTax (s : State) : Result :=
  .next (s.runOperation .imp false fun s => (s.setX s.a).nz s.a)

/-- TAY (R247). -/
def execTay (s : State) : Result :=
  .next (s.runOperation .imp false fun s => (s.setY s.a).nz s.a)

/-- TXA (R248). -/
def execTxa (s : State) : Result :=
  .next (s.runOperation .imp false fun s => (s.setA s.x).nz s.x)

/-- TYA (R249). -/
def execTya (s : State) : Result :=
  .next (s.runOperation .imp false fun s => (s.setA s.y).nz s.y)

/-- TSX (R250). -/
def execTsx (s : State) : Result :=
  .next (s.runOperation .imp false fun s => (s.setX s.sp).nz s.sp)

/-- TXS (R251): the only transfer without flags. -/
def execTxs (s : State) : Result :=
  .next (s.runOperation .imp false fun s => s.setSp s.x)

end Sys2Proof.Machine
end

