-- ==== Sys2Proof/Machine/Shift.lean ====
section
/-! DEFINITION. Shifts, rotates, increments and decrements (42_shift_incdec.md). -/

namespace Sys2Proof.Machine

/-- What the shifts and rotates share after `fetch()`: C, `temp`, Z, N, the write-back (R200 to R204). -/
def State.shiftCore (o : Operand) (carryOut : Bool) (t : Addr) (s : State) : State :=
  (((s.setFlag .c carryOut).setTemp t).nz (lo t)).writeBack o (lo t)

/-- What INC and DEC share after `fetch()`: `temp`, the write, Z, N (R205, R206). -/
def State.countMemory (t : Addr) (s : State) : State := ((s.setTemp t).write s.addrAbs (lo t)).nz (lo t)

/-- ASL (R201). -/
def execAsl (o : Operand) (s : State) : Result :=
  .next (s.runOperation o false fun s =>
    let s := s.fetch o; s.shiftCore o ((aslTemp s.fetched).getLsbD 8) (aslTemp s.fetched))

/-- LSR (R202). -/
def execLsr (o : Operand) (s : State) : Result :=
  .next (s.runOperation o false fun s =>
    let s := s.fetch o; s.shiftCore o (s.fetched.getLsbD 0) (lsrTemp s.fetched))

/-- ROL (R203). -/
def execRol (o : Operand) (s : State) : Result :=
  .next (s.runOperation o false fun s =>
    let s := s.fetch o; s.shiftCore o (s.fetched.getLsbD 7) (rolTemp (s.flag .c) s.fetched))

/-- ROR (R204). -/
def execRor (o : Operand) (s : State) : Result :=
  .next (s.runOperation o false fun s =>
    let s := s.fetch o; s.shiftCore o (s.fetched.getLsbD 0) (rorTemp (s.flag .c) s.fetched))

/-- INC (R205). -/
def execInc (o : Operand) (s : State) : Result :=
  .next (s.runOperation o false fun s => let s := s.fetch o; s.countMemory (incTemp s.fetched))

/-- DEC (R206). -/
def execDec (o : Operand) (s : State) : Result :=
  .next (s.runOperation o false fun s => let s := s.fetch o; s.countMemory (decTemp s.fetched))

/-- INX (R207). -/
def execInx (s : State) : Result :=
  .next (s.runOperation .imp false fun s => (s.setX (s.x + 1)).nz (s.x + 1))

/-- INY (R208). -/
def execIny (s : State) : Result :=
  .next (s.runOperation .imp false fun s => (s.setY (s.y + 1)).nz (s.y + 1))

/-- DEX (R209). -/
def execDex (s : State) : Result :=
  .next (s.runOperation .imp false fun s => (s.setX (s.x - 1)).nz (s.x - 1))

/-- DEY (R210). -/
def execDey (s : State) : Result :=
  .next (s.runOperation .imp false fun s => (s.setY (s.y - 1)).nz (s.y - 1))

end Sys2Proof.Machine
end

