-- ==== Sys2Proof/Machine/StackFlags.lean ====
section
/-! DEFINITION. Stack and flag instructions (44_stack_flags.md). -/

namespace Sys2Proof.Machine

/-- PHA (R280). -/
def execPha (s : State) : Result :=
  .next (s.runOperation .imp false fun s => s.push s.a)

/-- PHP (R281): the stacked copy has B and U set; B and U of P are cleared, and step 8 sets U again. -/
def execPhp (s : State) : Result :=
  .next (s.runOperation .imp false fun s => ((s.push (phpByte s.p)).setFlag .b false).setFlag .u false)

/-- PLA (R282). -/
def execPla (s : State) : Result :=
  .next (s.runOperation .imp false fun s => (s.pull.setA s.pulled).nz s.pulled)

/-- PLP (R283): all eight bits, then U forced. -/
def execPlp (s : State) : Result :=
  .next (s.runOperation .imp false fun s => s.pull.setP (plpStatus s.pulled))

/-- CLC (R284). -/
def execClc (s : State) : Result :=
  .next (s.runOperation .imp false fun s => s.setFlag .c false)

/-- SEC (R285). -/
def execSec (s : State) : Result :=
  .next (s.runOperation .imp false fun s => s.setFlag .c true)

/-- CLD (R286). -/
def execCld (s : State) : Result :=
  .next (s.runOperation .imp false fun s => s.setFlag .d false)

/-- SED (R287). -/
def execSed (s : State) : Result :=
  .next (s.runOperation .imp false fun s => s.setFlag .d true)

/-- CLI (R288). -/
def execCli (s : State) : Result :=
  .next (s.runOperation .imp false fun s => s.setFlag .i false)

/-- SEI (R289). -/
def execSei (s : State) : Result :=
  .next (s.runOperation .imp false fun s => s.setFlag .i true)

/-- CLV (R290). -/
def execClv (s : State) : Result :=
  .next (s.runOperation .imp false fun s => s.setFlag .v false)

end Sys2Proof.Machine
end

