-- ==== Sys2Proof/Machine/Clock.lean ====
section
/-! DEFINITION. `clock()` under any parameters (40_fetch_and_addressing.md R120, R121), and the placing of bytes in memory. -/

namespace Sys2Proof.Machine

/-- How the clock reports bytes that hold no instruction. -/
def refusalOf : DecodeError → Refusal
  | .truncated => .undecodable
  | .illegalOpcode b => .illegalOpcode b
  | .badRow _ => .undecodable

/-- The end of a tick that started an instruction. -/
def afterStart : Result → Result
  | .next t => .next t.tick
  | .fault r => .fault r
  | .refused r => .refused r

/-- `StartInstruction` and the end of its tick (R120, R121), under the parameters of R8. -/
def startInstruction (p : Params) (s : State) : Result :=
  match decode p (s.instructionBytes p) with
  | .ok (i, _) => afterStart (exec i s.beginInstruction)
  | .error e => .refused (refusalOf e)

/-- `clock()` under the parameters of R8: refused before a bus is connected (R61) and before the first `reset()` (R39). -/
def clockWith (p : Params) (s : State) : Result :=
  match s.boot with
  | .noBus => .refused .busNotConnected
  | .noReset => .refused .notYetReset
  | .live => if s.countdown = 0 then startInstruction p s else .next s.tick

/-- The RAM on the bus; in the place of a host-supplied pair, a RAM at creation. -/
def Bus.toRam : Bus → Bus
  | .ram m => .ram m
  | .host _ _ => .ram []

/-- The state with a list of bytes written at rising addresses that wrap modulo 65536. -/
def State.writeBytes (a : Addr) : List Byte → State → State
  | [], s => s
  | v :: rest, s => State.writeBytes (a + 1) rest (s.write a v)

end Sys2Proof.Machine
end

