-- ==== Sys2Proof/Machine/Step.lean ====
section
/-! DEFINITION. One step: one `clock()` call under the default parameters (40_fetch_and_addressing.md R120). -/

namespace Sys2Proof.Machine

/-- The step: `clock()` under the default parameters. One step is one tick: log 1. -/
def step (s : State) : Host.Outcome State Fault Refusal := clockWith defaultParams s

/-- The state whose next step starts the instruction of a table word: its bytes in RAM at PC, the countdown spent, the core live.
It stands for the host's loading of a program and for the idle ticks before it: log 1. A host-supplied pair gives way to a RAM,
since what it returns is not the model's to set. -/
def State.withFetchWord (s : State) (nbits w : Nat) : State :=
  { ({ s with bus := s.bus.toRam }).writeBytes s.pc (wordBytes nbits w) with countdown := 0, boot := .live }

end Sys2Proof.Machine
end

