-- ==== Sys2Proof/Machine/Calls.lean ====
section
/-! DEFINITION. The entry points of the block as the host calls them (00_scope.md R6, R14): one function over all of them.
The host makes one call at a time, in its own order (60_exceptions.md R375, R377). -/

namespace Sys2Proof.Machine

/-- A call of the host that can change something. The accessors (R31) change nothing and are no calls here: log 25. -/
inductive HostCall where
  /-- `clock()` (R120) -/
  | clock
  /-- `reset()` (R410) -/
  | reset
  /-- `irq()` (R372) -/
  | irq
  /-- `nmi()` (R373) -/
  | nmi
  /-- `connect_bus(b)` (R61): a RAM with its contents, or a host-supplied pair (R8) -/
  | connectBus (b : Bus)
  /-- a read of the bus by the host between calls (R74): the byte is `State.read` -/
  | hostRead (a : Addr)
  /-- a write of the bus by the host between calls (R74) -/
  | hostWrite (a : Addr) (v : Byte)
  deriving DecidableEq, Repr

/-- `reset()` (R410): refused before a bus is connected (R61), allowed at any later time (D26). -/
def callReset (s : State) : Result :=
  match s.boot with
  | .noBus => .refused .busNotConnected
  | .noReset | .live => .next s.resetSequence

/-- `irq()` (R372): refused before the first `reset()` (R39). -/
def callIrq (s : State) : Result :=
  match s.boot with
  | .noBus => .refused .busNotConnected
  | .noReset => .refused .notYetReset
  | .live => .next s.irq

/-- `nmi()` (R373): refused before the first `reset()` (R39). -/
def callNmi (s : State) : Result :=
  match s.boot with
  | .noBus => .refused .busNotConnected
  | .noReset => .refused .notYetReset
  | .live => .next s.nmi

/-- `connect_bus(b)` (R61): the bus is replaced and no register changes. -/
def callConnectBus (b : Bus) (s : State) : Result :=
  match s.boot with
  | .noBus | .noReset => .next { s with bus := b, boot := .noReset }
  | .live => .next { s with bus := b }

/-- A read of the bus by the host (R74). There is nothing to read before a bus is connected: log 13. -/
def callHostRead (a : Addr) (s : State) : Result :=
  match s.boot with
  | .noBus => .refused .busNotConnected
  | .noReset | .live => .next (s.afterRead a)

/-- A write of the bus by the host (R74). There is nothing to write before a bus is connected: log 13. -/
def callHostWrite (a : Addr) (v : Byte) (s : State) : Result :=
  match s.boot with
  | .noBus => .refused .busNotConnected
  | .noReset | .live => .next (s.write a v)

/-- One call of the host under the parameters of R8. -/
def callWith (p : Params) (c : HostCall) (s : State) : Result :=
  match c with
  | .clock => clockWith p s
  | .reset => callReset s
  | .irq => callIrq s
  | .nmi => callNmi s
  | .connectBus b => callConnectBus b s
  | .hostRead a => callHostRead a s
  | .hostWrite a v => callHostWrite a v s

/-- One call of the host under the default parameters. -/
def call (c : HostCall) (s : State) : Result := callWith defaultParams c s

/-- The host's calls in order, up to the first that is refused (R377). -/
def runCalls : List HostCall → State → Result
  | [], s => .next s
  | c :: rest, s =>
    match call c s with
    | .next t => runCalls rest t
    | .fault r => .fault r
    | .refused r => .refused r

end Sys2Proof.Machine
end

