-- ==== Sys2Proof/Machine/BusTrace.lean ====
section
/-! DEFINITION. The bus accesses of an instruction and of the other entry points, in order (20_memory.md R69). They are no
state of the machine: a list computed from the state before. -/

namespace Sys2Proof.Machine

/-- A read of the bus as it is in a state. -/
def State.readAccess (s : State) (a : Addr) : BusAccess := .read a (s.read a)

/-- The two reads of a word, low byte first (R64). -/
def State.pairAccesses (s : State) (low high : Addr) : List BusAccess := [s.readAccess low, (s.afterRead low).readAccess high]

/-- The reads of a mode: its operand bytes at rising PC, then its pointer (R69, R130 to R141). IMM reads nothing (R131). -/
def State.modeAccesses (s : State) (o : Operand) : List BusAccess :=
  match o with
  | .imp => []
  | .imm _ => []
  | .zp0 z | .zpx z | .zpy z => [.read s.pc z]
  | .rel d => [.read s.pc d]
  | .abs a | .abx a | .aby a => [.read s.pc (lo a), .read (s.pc + 1) (hi a)]
  | .ind ptr => [.read s.pc (lo ptr), .read (s.pc + 1) (hi ptr)] ++
      (s.afterReads [s.pc, s.pc + 1]).pairAccesses ptr (indirectHigh ptr)
  | .izx z => .read s.pc z :: (s.afterRead s.pc).pairAccesses (zext16 (z + s.x)) (zext16 (z + s.x + 1))
  | .izy z => .read s.pc z :: (s.afterRead s.pc).pairAccesses (zext16 z) (zext16 (z + 1))

/-- The read of `fetch()`: none in IMP mode (R145). -/
def State.fetchAccesses (s : State) (o : Operand) : List BusAccess :=
  match o with
  | .imp => []
  | .imm _ | .zp0 _ | .zpx _ | .zpy _ | .rel _ | .abs _ | .abx _ | .aby _ | .ind _ | .izx _ | .izy _ =>
    [.read (s.target o) (s.operandValue o)]

/-- The write of `WriteBack` (R200). -/
def State.writeBackAccesses (s : State) (o : Operand) (r : Byte) : List BusAccess :=
  match o with
  | .imp => []
  | .imm _ | .zp0 _ | .zpx _ | .zpy _ | .rel _ | .abs _ | .abx _ | .aby _ | .ind _ | .izx _ | .izy _ =>
    [.write (s.target o) r]

/-- The writes of pushing bytes, one address lower each (R66). -/
def pushAccesses (sp : Byte) : List Byte → List BusAccess
  | [] => []
  | v :: rest => .write (stackAddr sp) v :: pushAccesses (sp - 1) rest

/-- The reads of popping `n` bytes, one address higher each (R67). -/
def State.pullAccesses : Nat → State → List BusAccess
  | 0, _ => []
  | n + 1, s => .read (stackAddr (s.sp + 1)) s.pulled :: State.pullAccesses n s.pull

/-- The accesses of `takeInterrupt`: three pushes, two vector reads (R333, R374). -/
def State.interruptAccesses (vector : Addr) (stackedB : Bool) (s : State) : List BusAccess :=
  let status := putFlag .b stackedB (putFlag .i true s.p)
  pushAccesses s.sp [hi s.pc, lo s.pc, status] ++ ((s.pushWord s.pc).push status).pairAccesses vector (vector + 1)

/-- The accesses of the operation after the mode's (R69). `s` is the state before the mode's evaluation. -/
def State.operationAccesses (s : State) (i : Instr) : List BusAccess :=
  match i with
  | .adc o | .sbc _ o | .and o | .ora o | .eor o | .bit o | .cmp o | .cpx o | .cpy o | .lda o | .ldx o | .ldy o =>
    s.fetchAccesses o
  | .asl o => s.fetchAccesses o ++ s.writeBackAccesses o (lo (aslTemp (s.operandValue o)))
  | .lsr o => s.fetchAccesses o ++ s.writeBackAccesses o (lo (lsrTemp (s.operandValue o)))
  | .rol o => s.fetchAccesses o ++ s.writeBackAccesses o (lo (rolTemp (s.flag .c) (s.operandValue o)))
  | .ror o => s.fetchAccesses o ++ s.writeBackAccesses o (lo (rorTemp (s.flag .c) (s.operandValue o)))
  | .inc o => s.fetchAccesses o ++ [.write (s.target o) (lo (incTemp (s.operandValue o)))]
  | .dec o => s.fetchAccesses o ++ [.write (s.target o) (lo (decTemp (s.operandValue o)))]
  | .sta o => [.write (s.target o) s.a]
  | .stx o => [.write (s.target o) s.x]
  | .sty o => [.write (s.target o) s.y]
  | .pha => pushAccesses s.sp [s.a]
  | .php => pushAccesses s.sp [phpByte s.p]
  | .pla | .plp => s.pullAccesses 1
  | .jsr addr =>
    let ret := s.nextPc (.abs addr) - 1
    pushAccesses s.sp [hi ret, lo ret]
  | .rts => s.pullAccesses 2
  | .rti => s.pullAccesses 3
  | .brk o => ((s.afterMode o).setPc (s.nextPc o + 1)).interruptAccesses irqVector true
  | .inx | .iny | .dex | .dey | .tax | .tay | .txa | .tya | .tsx | .txs
  | .clc | .sec | .cld | .sed | .cli | .sei | .clv
  | .bpl _ | .bmi _ | .bvc _ | .bvs _ | .bcc _ | .bcs _ | .bne _ | .beq _ | .jmp _ | .nop _ _ | .unused _ => []

/-- The accesses of an instruction after its opcode's read (R69). -/
def State.instructionAccesses (s : State) (i : Instr) : List BusAccess :=
  s.modeAccesses i.operand ++ s.operationAccesses i

/-- All accesses of the tick that starts an instruction at PC: the opcode's read first (R69, R121). -/
def State.startAccesses (s : State) (i : Instr) : List BusAccess :=
  s.readAccess s.pc :: s.beginInstruction.instructionAccesses i

/-- The accesses of `irq()` (R372): none while masked. -/
def State.irqAccesses (s : State) : List BusAccess :=
  if s.flag .i then [] else (s.setFlag .u true).interruptAccesses irqVector false

/-- The accesses of `nmi()` (R373). -/
def State.nmiAccesses (s : State) : List BusAccess := (s.setFlag .u true).interruptAccesses nmiVector false

/-- The accesses of `reset()`: two reads (R410). -/
def State.resetAccesses (s : State) : List BusAccess := s.pairAccesses resetVector (resetVector + 1)

/-- The bus after a list of accesses, if every read returns the byte that the bus returns then (R72). -/
def replay : List BusAccess → Bus → Option Bus
  | [], b => some b
  | .read a v :: rest, b => if b.read a = v then replay rest (b.afterRead a) else none
  | .write a v :: rest, b => replay rest (b.write a v)

end Sys2Proof.Machine
end

