-- ==== Sys2Proof/Safety.lean ====
section
/-! DEFINITION. The terms claims are stated in: what a safe state is, what an instruction keeps, and what runs next. -/

namespace Sys2Proof.Machine

/-- The invariant of a core that has been reset: the RAM in canonical form, U set (10_state.md R28), at most 8 ticks to wait
(R35, D29), and live (R39). -/
structure State.Inv (s : State) : Prop where
  memory : s.bus.wf = true
  unusedFlag : s.flag .u = true
  countdown : s.countdown ≤ 8
  live : s.boot = .live

/-- A host call that hands over a RAM hands it over in canonical form. -/
def HostCall.ok : HostCall → Bool
  | .connectBus b => b.wf
  | .clock | .reset | .irq | .nmi | .hostRead _ | .hostWrite _ _ => true

/-- A run of host calls is safe if none of them is refused. -/
def SafeRun (cs : List HostCall) (s : State) : Prop := ∃ t, runCalls cs s = .next t ∧ t.Inv

/-- The 8-bit registers other than P (R20). -/
inductive Reg where
  | a | x | y | sp
  deriving DecidableEq, Repr

/-- The value of a register. -/
def State.reg (s : State) : Reg → Byte
  | .a => s.a
  | .x => s.x
  | .y => s.y
  | .sp => s.sp

/-- The latches an instruction uses (R32), without the opcode. -/
inductive Latch where
  | fetched | temp | addrAbs | addrRel
  deriving DecidableEq, Repr

/-- The value of a latch. -/
def State.latch (s : State) : Latch → Addr
  | .fetched => zext16 s.fetched
  | .temp => s.temp
  | .addrAbs => s.addrAbs
  | .addrRel => s.addrRel

/-- The latch a mode's evaluation writes (40_fetch_and_addressing.md R130 to R141). -/
def modeLatch : Operand → Latch
  | .imp => .fetched
  | .rel _ => .addrRel
  | .imm _ | .zp0 _ | .zpx _ | .zpy _ | .abs _ | .abx _ | .aby _ | .ind _ | .izx _ | .izy _ => .addrAbs

/-- The frame of an instruction: every register, flag and latch but the listed ones is kept, U ends set (R28), and the opcode,
the tick count and the boot stage are kept. PC, the countdown and memory are stated beside it. -/
structure Frame (regs : List Reg) (flags : List Flag) (latches : List Latch) (s t : State) : Prop where
  regs : ∀ r, r ∉ regs → t.reg r = s.reg r
  flags : ∀ f, f ∉ flags → f ≠ .u → t.flag f = s.flag f
  unusedFlag : t.flag .u = true
  latches : ∀ l, l ∉ latches → t.latch l = s.latch l
  opcode : t.opcode = s.opcode
  clockCount : t.clockCount = s.clockCount
  boot : t.boot = s.boot

/-- The bus is the RAM of 20_memory.md R62. -/
def OnRam (s : State) : Prop := ∃ m, s.bus = .ram m

/-- On a host-supplied pair, `t` is `s` with some calls more, the last one first, of which `Q` holds. What a pair returns is the
host's concern (R62), what it is called with is the core's. -/
def HostCalls (Q : List BusAccess → Prop) (s t : State) : Prop :=
  ∀ pair calls, s.bus = .host pair calls → ∃ more, t.bus = .host pair (more ++ calls) ∧ Q more

/-- Memory is written at the listed addresses at most: the RAM stays the bus and every other byte of it reads as before; a
host-supplied pair is not called with a write elsewhere. -/
def MemoryBut (addrs : List Addr) (s t : State) : Prop :=
  (OnRam s → OnRam t ∧ ∀ a, a ∉ addrs → t.read a = s.read a) ∧
  HostCalls (fun more => ∀ a v, .write a v ∈ more → a ∈ addrs) s t

/-- Memory is not written: every byte of the RAM reads as before. -/
def SameMemory (s t : State) : Prop := MemoryBut [] s t

/-- The byte is written to the address: the RAM holds it after, a host-supplied pair was called with it. -/
def Stored (a : Addr) (v : Byte) (s t : State) : Prop :=
  (OnRam s → t.read a = v) ∧ HostCalls (fun more => .write a v ∈ more) s t

/-- Control goes on after the operand, and the countdown gains the page-crossing cycle where the operation pays it (R123). -/
def Sequential (o : Operand) (pays : Bool) (s t : State) : Prop :=
  t.pc = s.pc + BitVec.ofNat 16 o.mode.operandBytes ∧
  t.countdown = s.countdown + (if pays && s.crosses o then 1 else 0)

/-- Z and N follow a byte (R29). -/
def FlagsFollow (v : Byte) (t : State) : Prop :=
  t.flag .z = decide (v.toNat = 0) ∧ t.flag .n = decide (128 ≤ v.toNat)

/-- A status byte as a number, from its flags: bit 0 is C, bit 7 is N (10_state.md R27). -/
def packed (flag : Flag → Bool) : Nat :=
  (flag .c).toNat + 2 * (flag .z).toNat + 4 * (flag .i).toNat + 8 * (flag .d).toNat + 16 * (flag .b).toNat +
    32 * (flag .u).toNat + 64 * (flag .v).toNat + 128 * (flag .n).toNat

/-- Six flags are the bits of a status byte at the places of R27. B and U, which not every load takes from the byte, are stated
beside it. -/
def LoadedFlags (v : Byte) (flag : Flag → Bool) : Prop :=
  (flag .c).toNat = v.toNat % 2 ∧ (flag .z).toNat = v.toNat / 2 % 2 ∧ (flag .i).toNat = v.toNat / 4 % 2 ∧
  (flag .d).toNat = v.toNat / 8 % 2 ∧ (flag .v).toNat = v.toNat / 64 % 2 ∧ (flag .n).toNat = v.toNat / 128 % 2

/-- The listed opcodes decode to the instruction with the operand of their mode, under the default parameters, and the instruction
has no other row. -/
def Opcodes (rows : List (Mode × Byte)) (f : Operand → Instr) : Prop :=
  (∀ (o : Operand) (b : Byte) (rest : List Byte), rows.lookup o.mode = some b →
    decode defaultParams (b :: (o.bytes ++ rest)) = .ok (f o, rest)) ∧
  ∀ o : Operand, rows.lookup o.mode = none → (f o).wf defaultParams = false

/-- An opcode of one byte decodes to the instruction, and its row has these base cycles. -/
def OneByteOpcode (b : Byte) (cycles : Nat) (i : Instr) : Prop :=
  (∀ rest, decode defaultParams (b :: rest) = .ok (i, rest)) ∧ (tableRow b).baseCycles = cycles

/-- The operand's bytes are what reads at rising addresses from PC on return. -/
def OperandAt (o : Operand) (s : State) : Prop := s.bytesFrom o.bytes.length s.pc = o.bytes

/-- The instruction's bytes are what reads at rising addresses from PC on return. -/
def InstrAt (i : Instr) (s : State) : Prop := s.bytesFrom (encode i).length s.pc = encode i

/-- The operations whose pseudocode calls `fetch()` (40_fetch_and_addressing.md R145). -/
def fetchingOps : List Op :=
  [.adc, .and, .asl, .bit, .cmp, .cpx, .cpy, .dec, .eor, .inc, .lda, .ldx, .ldy, .lsr, .ora, .rol, .ror, .sbc]

/-- The condition of a branch holds (45_control_transfer.md R321 to R328); another instruction takes no branch. -/
def branchTaken (i : Instr) (s : State) : Bool :=
  match i with
  | .bpl _ => !s.flag .n
  | .bmi _ => s.flag .n
  | .bvc _ => !s.flag .v
  | .bvs _ => s.flag .v
  | .bcc _ => !s.flag .c
  | .bcs _ => s.flag .c
  | .bne _ => !s.flag .z
  | .beq _ => s.flag .z
  | .adc _ | .sbc _ _ | .and _ | .ora _ | .eor _ | .bit _ | .cmp _ | .cpx _ | .cpy _
  | .asl _ | .lsr _ | .rol _ | .ror _ | .inc _ | .dec _ | .inx | .iny | .dex | .dey
  | .lda _ | .ldx _ | .ldy _ | .sta _ | .stx _ | .sty _ | .tax | .tay | .txa | .tya | .tsx | .txs
  | .pha | .php | .pla | .plp | .clc | .sec | .cld | .sed | .cli | .sei | .clv
  | .jmp _ | .jsr _ | .rts | .rti | .brk _ | .nop _ _ | .unused _ => false

/-- The displacement of a branch. -/
def displacement (i : Instr) : Byte :=
  match i.operand with
  | .rel d => d
  | .imp | .imm _ | .zp0 _ | .zpx _ | .zpy _ | .abs _ | .abx _ | .aby _ | .ind _ | .izx _ | .izy _ => 0

/-- The address after a branch's two bytes and its target from there, as numbers (R320): the displacement is signed. -/
def branchTarget (d : Byte) (s : State) : Addr := BitVec.ofInt 16 ((s.pc.toNat : Int) + 1 + d.toInt)

/-- The rows where a page crossing adds a cycle (40_fetch_and_addressing.md R147). -/
def pageCrossRows : List Byte :=
  [0x1D, 0x19, 0x11, 0x3D, 0x39, 0x31, 0x5D, 0x59, 0x51, 0x7D, 0x79, 0x71, 0xBD, 0xB9, 0xB1, 0xDD, 0xD9, 0xD1, 0xFD, 0xF9, 0xF1]
  ++ [0xBC, 0xBE] ++ [0x1C, 0x3C, 0x5C, 0x7C, 0xDC, 0xFC]

/-- The base cycles of a row by operation and mode, as the lists of 70_reset_and_hazards.md R425 and 30_encoding.md R97 give them
(the NOP row 0x9C and the `???` rows, which they do not cover so, aside). -/
def baseCyclesOf (op : Op) (m : Mode) : Nat :=
  match op with
  | .pha | .php => 3
  | .pla | .plp => 4
  | .jsr | .rts | .rti => 6
  | .brk => 7
  | .jmp => if m = .ind then 5 else 3
  | .asl | .lsr | .rol | .ror | .inc | .dec =>
    match m with
    | .zp0 => 5
    | .zpx | .abs => 6
    | .abx => 7
    | .imp | .imm | .zpy | .rel | .aby | .ind | .izx | .izy => 2
  | .sta | .stx | .sty =>
    match m with
    | .zp0 => 3
    | .zpx | .zpy | .abs => 4
    | .abx | .aby => 5
    | .imp | .imm | .rel | .ind | .izx | .izy => 6
  | .adc | .sbc | .and | .ora | .eor | .bit | .cmp | .cpx | .cpy | .lda | .ldx | .ldy | .nop =>
    match m with
    | .imp | .imm => 2
    | .zp0 => 3
    | .zpx | .zpy | .abs | .abx | .aby => 4
    | .izx => 6
    | .izy | .rel | .ind => 5
  | .inx | .iny | .dex | .dey | .tax | .tay | .txa | .tya | .tsx | .txs
  | .clc | .sec | .cld | .sed | .cli | .sei | .clv
  | .bpl | .bmi | .bvc | .bvs | .bcc | .bcs | .bne | .beq | .unused => 2

/-- The `???` rows by base cycles, as the map of 30_encoding.md R95 gives them. -/
def unusedBaseCycles : List (Nat × List Byte) :=
  [(2, [0x02, 0x0B, 0x12, 0x22, 0x2B, 0x32, 0x42, 0x4B, 0x52, 0x62, 0x6B, 0x72, 0x8B, 0x92, 0xAB, 0xB2,
       0xCB, 0xD2, 0xF2]),
   (3, [0x87, 0xA7]),
   (4, [0x8F, 0x97, 0xAF, 0xB7, 0xBB, 0xBF]),
   (5, [0x07, 0x27, 0x47, 0x67, 0x9B, 0x9E, 0x9F, 0xB3, 0xC7, 0xE7]),
   (6, [0x0F, 0x17, 0x2F, 0x37, 0x4F, 0x57, 0x6F, 0x77, 0x83, 0x93, 0xA3, 0xCF, 0xD7, 0xEF, 0xF7]),
   (7, [0x1B, 0x1F, 0x3B, 0x3F, 0x5B, 0x5F, 0x7B, 0x7F, 0xDB, 0xDF, 0xFB, 0xFF]),
   (8, [0x03, 0x13, 0x23, 0x33, 0x43, 0x53, 0x63, 0x73, 0xC3, 0xD3, 0xE3, 0xF3])]

end Sys2Proof.Machine
end

