-- ==== Sys2Proof/Certificates/Slice0/Obligations.lean ====
section
/-! DEFINITION. The statements for the provers. -/

namespace Sys2Proof.Shapes

open Sys2Proof.Machine

/-! The shapes that several instructions share. In every one, `s` is the state after steps 1 to 4 of `StartInstruction`
(40_fetch_and_addressing.md R121), so that PC is the address of the byte after the opcode. They hold on the RAM and on a
host-supplied pair (00_scope.md R8). -/

/-- AND, ORA, EOR: A is `f A M`. -/
def Logic (i : Operand → Instr) (f : Byte → Byte → Byte) : Prop :=
  ∀ (o : Operand) (s : State), ∃ t, exec (i o) s = .next t ∧
    t.a = f s.a (s.operandValue o) ∧ FlagsFollow t.a t ∧ t.fetched = s.operandValue o ∧
    Sequential o true s t ∧ SameMemory s t ∧ Frame [.a] [.z, .n] [.fetched, modeLatch o] s t

/-- CMP, CPX, CPY: the register `r` against M. -/
def Compare (i : Operand → Instr) (pays : Bool) (r : State → Byte) : Prop :=
  ∀ (o : Operand) (s : State), ∃ t, exec (i o) s = .next t ∧
    t.flag .c = decide ((s.operandValue o).toNat ≤ (r s).toNat) ∧
    FlagsFollow (r s - s.operandValue o) t ∧
    t.temp.toNat = ((r s).toNat + (65536 - (s.operandValue o).toNat)) % 65536 ∧ t.fetched = s.operandValue o ∧
    Sequential o pays s t ∧ SameMemory s t ∧ Frame [] [.c, .z, .n] [.fetched, .temp, modeLatch o] s t

/-- ASL, LSR, ROL, ROR: the 16-bit result from the carry and M as numbers, and the new carry from M. IMP writes A and no memory;
every other mode writes the byte at the effective address and not A. -/
def Shift (i : Operand → Instr) (result : Nat → Nat → Nat) (carry : Nat → Bool) : Prop :=
  ∀ (o : Operand) (s : State), ∃ t, exec (i o) s = .next t ∧
    (let r := result (s.flag .c).toNat (s.operandValue o).toNat
     t.temp.toNat = r ∧ FlagsFollow (BitVec.ofNat 8 r) t ∧
     (o = .imp → t.a = BitVec.ofNat 8 r ∧ SameMemory s t) ∧
     (o ≠ .imp → t.a = s.a ∧ Stored (s.target o) (BitVec.ofNat 8 r) s t ∧ MemoryBut [s.target o] s t)) ∧
    t.flag .c = carry (s.operandValue o).toNat ∧ t.fetched = s.operandValue o ∧
    Sequential o false s t ∧ Frame [.a] [.c, .z, .n] [.fetched, .temp, modeLatch o] s t

/-- INC, DEC: the byte at the effective address is counted by `step`, modulo 256, with one read and one write of it. -/
def Count (i : Operand → Instr) (step : Nat) : Prop :=
  ∀ (o : Operand) (s : State), ∃ t, exec (i o) s = .next t ∧
    (let r := ((s.operandValue o).toNat + step) % 65536
     t.temp.toNat = r ∧ FlagsFollow (BitVec.ofNat 8 r) t ∧ Stored (s.target o) (BitVec.ofNat 8 r) s t ∧
     s.instructionAccesses (i o) = s.modeAccesses o ++ s.fetchAccesses o ++ [.write (s.target o) (BitVec.ofNat 8 r)]) ∧
    MemoryBut [s.target o] s t ∧ t.fetched = s.operandValue o ∧
    Sequential o false s t ∧ Frame [] [.z, .n] [.fetched, .temp, modeLatch o] s t

/-- INX, INY, DEX, DEY: the register is counted by `step`, modulo 256, without a bus access. -/
def CountRegister (i : Instr) (r : Reg) (step : Nat) : Prop :=
  ∀ s : State, ∃ t, exec i s = .next t ∧
    (t.reg r).toNat = ((s.reg r).toNat + step) % 256 ∧ FlagsFollow (t.reg r) t ∧ t.fetched = s.a ∧ s.instructionAccesses i = [] ∧
    Sequential .imp false s t ∧ SameMemory s t ∧ Frame [r] [.z, .n] [.fetched] s t

/-- LDA, LDX, LDY: the register takes M. -/
def Load (i : Operand → Instr) (r : Reg) : Prop :=
  ∀ (o : Operand) (s : State), ∃ t, exec (i o) s = .next t ∧
    t.reg r = s.operandValue o ∧ FlagsFollow (s.operandValue o) t ∧ t.fetched = s.operandValue o ∧
    Sequential o true s t ∧ SameMemory s t ∧ Frame [r] [.z, .n] [.fetched, modeLatch o] s t

/-- STA, STX, STY: the byte at the effective address takes the register; no flag, no register, no read of the target. -/
def Store (i : Operand → Instr) (r : Reg) : Prop :=
  ∀ (o : Operand) (s : State), ∃ t, exec (i o) s = .next t ∧
    Stored (s.target o) (s.reg r) s t ∧ MemoryBut [s.target o] s t ∧
    s.instructionAccesses (i o) = s.modeAccesses o ++ [.write (s.target o) (s.reg r)] ∧
    Sequential o false s t ∧ Frame [] [] [modeLatch o] s t

/-- TAX, TAY, TXA, TYA, TSX: `dst` takes `src` and sets Z and N. -/
def Transfer (i : Instr) (src dst : Reg) : Prop :=
  ∀ s : State, ∃ t, exec i s = .next t ∧
    t.reg dst = s.reg src ∧ FlagsFollow (s.reg src) t ∧ t.fetched = s.a ∧
    Sequential .imp false s t ∧ SameMemory s t ∧ Frame [dst] [.z, .n] [.fetched] s t

/-- CLC to CLV: one flag is set or cleared. -/
def FlagWrite (i : Instr) (f : Flag) (v : Bool) : Prop :=
  ∀ s : State, ∃ t, exec i s = .next t ∧
    t.flag f = v ∧ t.fetched = s.a ∧
    Sequential .imp false s t ∧ SameMemory s t ∧ Frame [] [f] [.fetched] s t

/-- The conditional branches (45_control_transfer.md R320): taken or not by `cond`. -/
def Branch (i : Byte → Instr) (cond : State → Bool) : Prop :=
  ∀ (d : Byte) (s : State), ∃ t, exec (i d) s = .next t ∧
    (cond s = true →
      t.pc = branchTarget d s ∧ t.addrAbs = branchTarget d s ∧
      t.countdown = s.countdown + 1 + (if (branchTarget d s).toNat / 256 = (s.pc + 1).toNat / 256 then 0 else 1)) ∧
    (cond s = false → t.pc = s.pc + 1 ∧ t.addrAbs = s.addrAbs ∧ t.countdown = s.countdown) ∧
    t.addrRel.toInt = d.toInt ∧ SameMemory s t ∧ Frame [] [] [.addrRel, .addrAbs] s t

/-- A branch's opcode and displacement decode to it, and its row has base 2. -/
def BranchOpcode (b : Byte) (i : Byte → Instr) : Prop :=
  (∀ d rest, decode defaultParams (b :: d :: rest) = .ok (i d, rest)) ∧ (tableRow b).baseCycles = 2

/-- The three bytes an interrupt stacks from the state `s` on: PC high and low, then the status byte, its flags at the places of
10_state.md R27. -/
def StackedFrame (ret : Addr) (status : Flag → Bool) (s t : State) : Prop :=
  Stored (stackAddr s.sp) (BitVec.ofNat 8 (ret.toNat / 256)) s t ∧
  Stored (stackAddr (s.sp - 1)) (BitVec.ofNat 8 (ret.toNat % 256)) s t ∧
  ∃ v, Stored (stackAddr (s.sp - 2)) v s t ∧ v.toNat = packed status ∧ ∀ f, getFlag f v = status f

/-- PC is the word of a vector: on the RAM, the one that stands there. -/
def FromVector (vector : Addr) (s t : State) : Prop :=
  OnRam s → t.pc.toNat = (s.read (vector + 1)).toNat * 256 + (s.read vector).toNat

/-- The bus accesses of an entry that starts on the bus `b` and leaves the state `t`: three stack writes, then the two reads of
the vector, which give PC, and nothing else. -/
def EntryAccesses (vector : Addr) (sp : Byte) (accesses : List BusAccess) (b : Bus) (t : State) : Prop :=
  replay accesses b = some t.bus ∧
  ∃ v1 v2 v3 v4 v5, t.pc.toNat = v5.toNat * 256 + v4.toNat ∧ accesses =
    [.write (stackAddr sp) v1, .write (stackAddr (sp - 1)) v2, .write (stackAddr (sp - 2)) v3, .read vector v4, .read (vector + 1) v5]

/-- The hardware entry (60_exceptions.md R374): frame, flags, vector, countdown, and everything it keeps. -/
def Entry (vector : Addr) (ticks : Nat) (s t : State) : Prop :=
  StackedFrame s.pc (fun f => if f = .b then false else if f = .u ∨ f = .i then true else s.flag f) s t ∧
  (∀ f, t.flag f = if f = .b then false else if f = .u ∨ f = .i then true else s.flag f) ∧
  FromVector vector s t ∧
  t.sp = s.sp - 3 ∧ t.countdown = ticks ∧
  MemoryBut [stackAddr s.sp, stackAddr (s.sp - 1), stackAddr (s.sp - 2)] s t ∧
  Frame [.sp] [.i, .b] [] s t

/-- Nothing is written outside page 1. -/
def StaysInPageOne (s t : State) : Prop :=
  (OnRam s → ∀ a : Addr, a.toNat < 0x0100 ∨ 0x01FF < a.toNat → t.read a = s.read a) ∧
  HostCalls (fun more => ∀ a v, .write a v ∈ more → 0x0100 ≤ a.toNat ∧ a.toNat ≤ 0x01FF) s t

/-- Two states that differ at most in the latches (10_state.md R32). -/
structure SameButLatches (s t : State) : Prop where
  a : t.a = s.a
  x : t.x = s.x
  y : t.y = s.y
  sp : t.sp = s.sp
  p : t.p = s.p
  pc : t.pc = s.pc
  countdown : t.countdown = s.countdown
  clockCount : t.clockCount = s.clockCount
  bus : t.bus = s.bus
  boot : t.boot = s.boot

end Sys2Proof.Shapes

open Sys2Proof Sys2Proof.Machine Sys2Proof.Shapes

/-! ### Encoding -/

/-- Words written out from the opcode map (R95, R97) and the operand formats (R92, R93) decode to their instructions. The map is
the spec's supply from general knowledge (log 6). -/
def Obligations.KnownWordsDecode : Prop :=
  decode defaultParams [0x69, 0x01] = .ok (.adc (.imm 0x01), []) ∧
  decode defaultParams [0xEB, 0x03] = .ok (.sbc true (.imm 0x03), []) ∧
  decode defaultParams [0x31, 0x20] = .ok (.and (.izy 0x20), []) ∧
  decode defaultParams [0x1E, 0xF0, 0x12] = .ok (.asl (.abx 0x12F0), []) ∧
  decode defaultParams [0x6A] = .ok (.ror .imp, []) ∧
  decode defaultParams [0xB6, 0xF0] = .ok (.ldx (.zpy 0xF0), []) ∧
  decode defaultParams [0x81, 0x20] = .ok (.sta (.izx 0x20), []) ∧
  decode defaultParams [0x9A] = .ok (.txs, []) ∧
  decode defaultParams [0x28] = .ok (.plp, []) ∧
  decode defaultParams [0xD0, 0xFA] = .ok (.bne 0xFA, []) ∧
  decode defaultParams [0x6C, 0xFF, 0x02] = .ok (.jmp (.ind 0x02FF), []) ∧
  decode defaultParams [0x20, 0x00, 0x90] = .ok (.jsr 0x9000, []) ∧
  decode defaultParams [0x00] = .ok (.brk .imp, []) ∧
  decode defaultParams [0x9C, 0xF0, 0x12] = .ok (.nop 0x9C (.abx 0x12F0), []) ∧
  decode defaultParams [0xFF] = .ok (.unused 0xFF, [])

/-- Decode and encode agree: under all parameters, every well-formed instruction comes back from its bytes, and what follows it is
left over. -/
def Obligations.DecodeEncodeRoundTrip : Prop :=
  ∀ (p : Params) (i : Instr) (rest : List Byte), i.wf p = true → decode p (encode i ++ rest) = .ok (i, rest)

/-- The other direction: what the decoder reads is well-formed, and the bytes read are its encoding. So no byte string holds two
instructions. -/
def Obligations.DecodedBytesAreTheEncoding : Prop :=
  ∀ (p : Params) (bs rest : List Byte) (i : Instr), decode p bs = .ok (i, rest) → i.wf p = true ∧ bs = encode i ++ rest

/-- R99, R98: every opcode followed by two bytes decodes under `nop`; under `refuse` exactly the 76 unused rows do not. The policy
is the spec's choice (D7, log 4). -/
def Obligations.EveryOpcodeDecodes : Prop :=
  ∀ (p : Params) (b v w : Byte),
    (p.illegal = .nop ∨ b ∉ unusedRows → ∃ i rest, decode p [b, v, w] = .ok (i, rest)) ∧
    (p.illegal = .refuse → b ∈ unusedRows → decode p [b, v, w] = .error (.illegalOpcode b))

/-- R92, R94, R97: the opcode alone fixes the length, and the unofficial NOP rows have the lengths of their parameter. That
parameter is the spec's choice (D5, log 3). -/
def Obligations.OpcodeAloneFixesLength : Prop :=
  (∀ (p : Params) (b : Byte) (tail rest : List Byte) (i : Instr), decode p (b :: tail) = .ok (i, rest) →
    i.mode = rowMode p b ∧ tail.length = rest.length + (rowMode p b).operandBytes) ∧
  (∀ (p : Params) (e : Byte × Mode), e ∈ unofficialNops →
    rowMode p e.1 = (match p.nopModes with | .hardware => e.2 | .implied => .imp))

/-! ### The step -/

/-- R120, R121: when the bytes at PC are a well-formed instruction's and the countdown is 0, the clock reads the opcode, latches
it, forces U, advances PC past the opcode, loads the row's base cycles, runs the instruction, and counts the tick. So it does
under all parameters of R8, which say what is well-formed (logs 2, 3, 4); the step is the clock under the defaults. -/
def Obligations.StepRunsDecodedInstruction : Prop :=
  ∀ (p : Params) (s : State) (i : Instr), s.boot = .live → s.countdown = 0 → i.wf p = true → InstrAt i s →
    ∃ u, exec i { s with opcode := s.read s.pc, p := putFlag .u true s.p, pc := s.pc + 1,
                         countdown := (tableRow (s.read s.pc)).baseCycles, bus := s.bus.afterRead s.pc } = .next u ∧
      clockWith p s = .next { u with clockCount := u.clockCount + 1, countdown := u.countdown - 1 } ∧
      (p = defaultParams → step s = .next { u with clockCount := u.clockCount + 1, countdown := u.countdown - 1 })

/-- R120, R124: a tick in the middle of an instruction only counts. -/
def Obligations.IdleTickOnlyCounts : Prop :=
  ∀ s : State, s.boot = .live → s.countdown ≠ 0 →
    ∃ t, step s = .next t ∧ t.countdown + 1 = s.countdown ∧ t.clockCount = s.clockCount + 1 ∧
      t = { s with countdown := t.countdown, clockCount := t.clockCount }

/-- R370, R99: a core that has been reset always has a next tick, whatever its bus returns. That an unused row runs is the default
policy (D7, log 4). -/
def Obligations.LiveCoreNeverStops : Prop :=
  ∀ s : State, s.boot = .live → ∃ t, step s = .next t ∧ t.boot = .live ∧ t.clockCount = s.clockCount + 1

/-- R98, R335: at a `???` row the clock runs a one-byte no-op under `nop` and refuses under `refuse`; at any other row it runs
under both. The policy is the spec's choice (D7, log 4). -/
def Obligations.UnusedRowsFollowThePolicy : Prop :=
  ∀ (p : Params) (s : State), s.boot = .live → s.countdown = 0 →
    (p.illegal = .refuse → s.read s.pc ∈ unusedRows → clockWith p s = .refused (.illegalOpcode (s.read s.pc))) ∧
    (p.illegal = .nop ∨ s.read s.pc ∉ unusedRows → ∃ t, clockWith p s = .next t) ∧
    (p.illegal = .nop → s.read s.pc ∈ unusedRows → ∃ t, clockWith p s = .next t ∧ t.pc = s.pc + 1 ∧ t.fetched = s.a ∧
      t.countdown + 1 = (tableRow (s.read s.pc)).baseCycles ∧ SameMemory s t ∧ (∀ r, t.reg r = s.reg r) ∧
      ∀ f, t.flag f = if f = .u then true else s.flag f)

/-- R39, R61, R412: before a bus is connected every call but `connect_bus` is refused, and before the first `reset()` so are
`clock()`, `irq()` and `nmi()`. The refusals of entry points are the spec's choice (D17, D18, log 13). The host's own reads and
writes of the bus are no entry points of R61: that they are refused without a bus is the model's choice (log 13). The accessors
are fields, not calls of this function, and answer before a bus too: the model's choice (log 25). -/
def Obligations.NoCallBeforeBusAndReset : Prop :=
  ∀ s : State,
    (s.boot = .noBus → ∀ c : HostCall, (∀ b, c ≠ .connectBus b) → call c s = .refused .busNotConnected) ∧
    (s.boot = .noReset → ∀ c ∈ [HostCall.clock, .irq, .nmi], call c s = .refused .notYetReset)

/-- R61, R8: `connect_bus` always answers; the bus is the one handed over and no register changes; only before the first `reset()`
does it change what may be called. That a later `connect_bus` replaces the bus and keeps the registers is the spec's choice (D18,
log 13); what may be called is the model's boot stage (log 13); the form of a bus is the model's choice (logs 5, 23). From then on
a host-supplied pair is called for every read and write, here the host's own (R74): what it returns is free (log 5). -/
def Obligations.ConnectBusReplacesTheBus : Prop :=
  (∀ (s : State) (b : Bus), ∃ t, call (.connectBus b) s = .next t ∧
    t = { s with bus := b, boot := t.boot } ∧ (t.boot = .live ↔ s.boot = .live) ∧ t.boot ≠ .noBus) ∧
  (∀ (s : State) (pair : Nat) (calls : List BusAccess) (a : Addr) (v : Byte), s.boot ≠ .noBus → s.bus = .host pair calls →
    s.read a = Config.hostReply pair calls a ∧
    call (.hostRead a) s = .next { s with bus := .host pair (.read a (s.read a) :: calls) } ∧
    call (.hostWrite a v) s = .next { s with bus := .host pair (.write a v :: calls) })

/-- The state after reset meets the invariant, and it is what `reset()` leaves on a bus of zeros; under any parameters (R8), what
`connect_bus` and `reset()` leave is the start on the bus of the parameters. That its tick count is 0 is the model's choice (log
12). -/
def Obligations.ResetStateMeetsTheInvariant : Prop :=
  State.reset.Inv ∧ State.resetWith defaultParams = State.reset ∧
  (∀ s : State, s.boot ≠ .noBus → s.bus = .ram [] → s.clockCount = 0 → call .reset s = .next State.reset) ∧
  ∀ (p : Params) (s : State), s.clockCount = 0 → runCalls [.connectBus p.bus, .reset] s = .next (State.resetWith p)

/-- Every step keeps the invariant: canonical memory, U set, at most 8 ticks to wait, live. The canonical form is the model's own
(log 20). -/
def Obligations.StepKeepsInvariant : Prop :=
  ∀ s t : State, s.Inv → step s = .next t → t.Inv

/-- A core that meets the invariant answers every list of host calls, in any order (R375, R377), and still meets it. That every
clock call answers rests on the default policy, the spec's choice (D7, log 4); that calls answer after a later `connect_bus`, on
the model's own boot stage (log 13). That a bus is handed over in canonical form is a condition on the model's own form of memory
(logs 20, 23). The calls outside `step` are the model's form (log 17). -/
def Obligations.EveryHostScheduleIsSafe : Prop :=
  ∀ (cs : List HostCall) (s : State), s.Inv → (∀ c ∈ cs, c.ok = true) → SafeRun cs s

/-- R28: no call of the host shows U as 0: the clock that starts an instruction, a taken interrupt and `reset()` set it, and every
other call keeps it. -/
def Obligations.UnusedFlagReadsAsOne : Prop :=
  ∀ (c : HostCall) (s t : State), call c s = .next t →
    (s.flag .u = true → t.flag .u = true) ∧
    (c = .clock → s.countdown = 0 → t.flag .u = true) ∧
    (c = .nmi ∨ c = .reset → t.flag .u = true) ∧
    (c = .irq → s.flag .i = false → t.flag .u = true)

/-- R35, R120: every row has at least 2 base cycles, and a tick never takes the countdown below 0. That no row has more than 8 is
in neither rule: it is read from the values of the table (R95, D8), the spec's supply from general knowledge (log 6 PRESUMED),
with the countdown of D29 (log 19). -/
def Obligations.CountdownNeverUnderflows : Prop :=
  (∀ b, 2 ≤ (tableRow b).baseCycles ∧ (tableRow b).baseCycles ≤ 8) ∧
  (∀ s t : State, step s = .next t →
    (s.countdown ≠ 0 → t.countdown + 1 = s.countdown) ∧
    (s.countdown = 0 → (tableRow (s.read s.pc)).baseCycles ≤ t.countdown + 1))

/-- R425, R97: the base cycles of every row that has an effect, by operation and mode; those of the `???` rows are in
`NopAndUnusedRows`. The values are the spec's supply from general knowledge (log 6 PRESUMED). -/
def Obligations.BaseCyclesOfTheRows : Prop :=
  ∀ (i : Instr) (b : Byte), i.wf defaultParams = true → i.opcode = some b → b ∉ unusedRows →
    (tableRow b).baseCycles = if b = 0x9C then 5 else baseCyclesOf i.op i.mode

/-- R425, R147, R320: what an instruction adds to its row's base cycles: one for a page crossing in the rows of R147, and for a
taken branch one, or two across a page. The rows and the page compared are the spec's choices (D9, D15, logs 7, 11). -/
def Obligations.InstructionTicks : Prop :=
  ∀ (i : Instr) (s : State) (b : Byte), i.wf defaultParams = true → i.opcode = some b →
    ∃ t, exec i s = .next t ∧
      t.countdown = s.countdown
        + (if s.crosses i.operand = true ∧ b ∈ pageCrossRows then 1 else 0)
        + (if branchTaken i s then
            1 + (if (branchTarget (displacement i) s).toNat / 256 = (s.pc + 1).toNat / 256 then 0 else 1)
          else 0)

/-! ### Addressing modes -/

/-- R132 to R134: the zero-page modes stay in page 0, with 8-bit wrap-around, and read one operand byte. -/
def Obligations.ZeroPageModes : Prop :=
  ∀ (z : Byte) (s : State),
    (s.target (.zp0 z)).toNat = z.toNat ∧
    (s.target (.zpx z)).toNat = (z.toNat + s.x.toNat) % 256 ∧
    (s.target (.zpy z)).toNat = (z.toNat + s.y.toNat) % 256 ∧
    ∀ o ∈ [Operand.zp0 z, .zpx z, .zpy z],
      s.crosses o = false ∧ s.modeAccesses o = [.read s.pc z] ∧
      s.address o = { s with addrAbs := s.target o, pc := s.pc + 1, bus := s.bus.afterRead s.pc }

/-- R136 to R138: the absolute modes wrap modulo 65536, hint a page crossing when the high byte changes, and read two operand
bytes. The wrap is the spec's choice (D13, log 9). -/
def Obligations.AbsoluteModes : Prop :=
  ∀ (base : Addr) (s : State),
    s.target (.abs base) = base ∧ s.crosses (.abs base) = false ∧
    (s.target (.abx base)).toNat = (base.toNat + s.x.toNat) % 65536 ∧
    (s.target (.aby base)).toNat = (base.toNat + s.y.toNat) % 65536 ∧
    (∀ o ∈ [Operand.abx base, .aby base],
      (s.crosses o = true ↔ (s.target o).toNat / 256 ≠ base.toNat / 256)) ∧
    ∀ o ∈ [Operand.abs base, .abx base, .aby base],
      s.modeAccesses o = [.read s.pc (lo base), .read (s.pc + 1) (hi base)] ∧
      s.address o = { s with addrAbs := s.target o, pc := s.pc + 2, bus := (s.bus.afterRead s.pc).afterRead (s.pc + 1) }

/-- R139: after its two operand bytes, IND reads the low byte at the pointer and the high byte one address on, but from the start
of the same page when the pointer's low byte is 0xFF; its hint is 0. The hint and the order of the reads are the spec's choice
(D10, D14, logs 10, 11). -/
def Obligations.IndirectModeWrapsInThePage : Prop :=
  ∀ (ptr : Addr) (s : State),
    let high : Addr := BitVec.ofNat 16 (if ptr.toNat % 256 = 255 then ptr.toNat - 255 else ptr.toNat + 1)
    let s1 := (s.afterRead s.pc).afterRead (s.pc + 1)
    let l := s1.read ptr
    let h := (s1.afterRead ptr).read high
    (s.target (.ind ptr)).toNat = h.toNat * 256 + l.toNat ∧
    s.modeAccesses (.ind ptr) = [.read s.pc (lo ptr), .read (s.pc + 1) (hi ptr), .read ptr l, .read high h] ∧
    s.crosses (.ind ptr) = false ∧
    s.address (.ind ptr) =
      { s with addrAbs := s.target (.ind ptr), pc := s.pc + 2, bus := ((s1.afterRead ptr).afterRead high).bus }

/-- R140, R141: after its operand byte, IZX and IZY read both bytes of their pointer from page 0, low byte first; IZY adds Y
modulo 65536 and hints a page crossing when the high byte changes; IZX hints none. IZY's pointer wrap, the wrap of the sum and the
order of the reads are the spec's choices (D11, D13, D14, logs 9, 10, 11). -/
def Obligations.ZeroPagePointerModes : Prop :=
  ∀ (z : Byte) (s : State),
    let s1 := s.afterRead s.pc
    let at' (k : Nat) : Addr := BitVec.ofNat 16 (k % 256)
    let l (k : Nat) : Byte := s1.read (at' k)
    let h (k : Nat) : Byte := (s1.afterRead (at' k)).read (at' (k + 1))
    let word (k : Nat) : Nat := (h k).toNat * 256 + (l k).toNat
    let accesses (k : Nat) : List BusAccess := [.read s.pc z, .read (at' k) (l k), .read (at' (k + 1)) (h k)]
    let left (k : Nat) : Bus := ((s1.afterRead (at' k)).afterRead (at' (k + 1))).bus
    let x := z.toNat + s.x.toNat
    (s.target (.izx z)).toNat = word x ∧ s.modeAccesses (.izx z) = accesses x ∧ s.crosses (.izx z) = false ∧
    s.address (.izx z) = { s with addrAbs := s.target (.izx z), pc := s.pc + 1, bus := left x } ∧
    (s.target (.izy z)).toNat = (word z.toNat + s.y.toNat) % 65536 ∧ s.modeAccesses (.izy z) = accesses z.toNat ∧
    (s.crosses (.izy z) = true ↔ (word z.toNat + s.y.toNat) % 65536 / 256 ≠ word z.toNat / 256) ∧
    s.address (.izy z) = { s with addrAbs := s.target (.izy z), pc := s.pc + 1, bus := left z.toNat }

/-- R130, R131, R135: IMP latches A and reads nothing, IMM's address is PC, REL sign-extends its byte; none hints a crossing, and
only REL reads an operand byte. -/
def Obligations.ImpliedImmediateAndRelativeModes : Prop :=
  ∀ (v : Byte) (s : State),
    s.address .imp = { s with fetched := s.a } ∧
    s.address (.imm v) = { s with addrAbs := s.pc, pc := s.pc + 1 } ∧
    (∃ r : Addr, r.toInt = v.toInt ∧ s.address (.rel v) = { s with addrRel := r, pc := s.pc + 1, bus := s.bus.afterRead s.pc }) ∧
    s.modeAccesses .imp = [] ∧ s.modeAccesses (.imm v) = [] ∧ s.modeAccesses (.rel v) = [.read s.pc v] ∧
    ∀ o ∈ [Operand.imp, .imm v, .rel v], s.crosses o = false

/-- R145: after the mode, `fetch()` leaves the latch alone and reads nothing in IMP mode; in every other mode it makes one read at
`addr_abs` and returns its byte, when the operand's bytes stand at PC; it changes nothing else. Which operations read is the
spec's choice (D14, log 11). -/
def Obligations.FetchReadsTheAddressedByte : Prop :=
  ∀ (o : Operand) (s : State), OperandAt o s →
    let u := s.address o
    (o = .imp → u.fetch o = u ∧ s.fetchAccesses o = []) ∧
    (o ≠ .imp → u.fetch o = { u with fetched := u.read u.addrAbs, bus := u.bus.afterRead u.addrAbs } ∧
      s.fetchAccesses o = [.read u.addrAbs (u.read u.addrAbs)]) ∧
    (u.fetch o).fetched = s.operandValue o

/-! ### Arithmetic and logic -/

/-- R161: ADC. -/
def Obligations.AdcAddsWithCarry : Prop :=
  Opcodes [(.imm, 0x69), (.zp0, 0x65), (.zpx, 0x75), (.abs, 0x6D), (.abx, 0x7D), (.aby, 0x79), (.izx, 0x61), (.izy, 0x71)] .adc ∧
  ∀ (o : Operand) (s : State), ∃ t, exec (.adc o) s = .next t ∧
    (let m := s.operandValue o
     let sum := s.a.toNat + m.toNat + (s.flag .c).toNat
     let signed := s.a.toInt + m.toInt + ((s.flag .c).toNat : Int)
     t.temp.toNat = sum ∧ t.a.toNat = sum % 256 ∧ t.flag .c = decide (255 < sum) ∧
     t.flag .v = decide (signed < -128 ∨ 127 < signed) ∧
     t.flag .v = (s.a.msb == m.msb && t.a.msb != s.a.msb) ∧
     FlagsFollow t.a t ∧ t.fetched = m) ∧
    Sequential o true s t ∧ SameMemory s t ∧ Frame [.a] [.c, .v, .z, .n] [.fetched, .temp, modeLatch o] s t

/-- R162: SBC, with C as "no borrow", in both of its immediate rows. The row 0xEB is the spec's choice (D4, log 6). -/
def Obligations.SbcSubtractsWithBorrow : Prop :=
  Opcodes [(.imm, 0xE9), (.zp0, 0xE5), (.zpx, 0xF5), (.abs, 0xED), (.abx, 0xFD), (.aby, 0xF9), (.izx, 0xE1), (.izy, 0xF1)]
    (.sbc false) ∧
  Opcodes [(.imm, 0xEB)] (.sbc true) ∧
  ∀ (viaEB : Bool) (o : Operand) (s : State), ∃ t, exec (.sbc viaEB o) s = .next t ∧
    (let m := s.operandValue o
     let borrow := 1 - (s.flag .c).toNat
     let signed := s.a.toInt - m.toInt - (borrow : Int)
     t.temp.toNat = s.a.toNat + (255 - m.toNat) + (s.flag .c).toNat ∧
     t.a.toNat = (s.a.toNat + 256 - m.toNat - borrow) % 256 ∧
     t.flag .c = decide (255 < t.temp.toNat) ∧ t.flag .c = decide (m.toNat + borrow ≤ s.a.toNat) ∧
     t.flag .v = decide (signed < -128 ∨ 127 < signed) ∧
     t.flag .v = (s.a.msb != m.msb && t.a.msb != s.a.msb) ∧
     FlagsFollow t.a t ∧ t.fetched = m) ∧
    Sequential o true s t ∧ SameMemory s t ∧ Frame [.a] [.c, .v, .z, .n] [.fetched, .temp, modeLatch o] s t

/-- R170: ADC M with carry c leaves carry C1; SBC of the same M, in any state with that A and that carry, gives `A + c + C1 - 1`
modulo 256, so A comes back exactly when `c + C1 = 1`. With the carry clear before the ADC and set before the SBC, A always comes
back. -/
def Obligations.AdcThenSbcLaw : Prop :=
  ∀ (o o' : Operand) (s t v : State) (viaEB : Bool), exec (.adc o) s = .next t →
    v.a = t.a → v.operandValue o' = s.operandValue o →
    ∃ u, exec (.sbc viaEB o') v = .next u ∧
      (v.flag .c = t.flag .c →
        u.a.toNat = (s.a.toNat + (s.flag .c).toNat + (t.flag .c).toNat + 255) % 256 ∧
        (u.a = s.a ↔ (s.flag .c).toNat + (t.flag .c).toNat = 1)) ∧
      (s.flag .c = false → v.flag .c = true → u.a = s.a)

/-- R163 to R165: AND, ORA, EOR. -/
def Obligations.LogicOperations : Prop :=
  Opcodes [(.imm, 0x29), (.zp0, 0x25), (.zpx, 0x35), (.abs, 0x2D), (.abx, 0x3D), (.aby, 0x39), (.izx, 0x21), (.izy, 0x31)] .and ∧
  Opcodes [(.imm, 0x09), (.zp0, 0x05), (.zpx, 0x15), (.abs, 0x0D), (.abx, 0x1D), (.aby, 0x19), (.izx, 0x01), (.izy, 0x11)] .ora ∧
  Opcodes [(.imm, 0x49), (.zp0, 0x45), (.zpx, 0x55), (.abs, 0x4D), (.abx, 0x5D), (.aby, 0x59), (.izx, 0x41), (.izy, 0x51)] .eor ∧
  Logic .and (fun a m => a &&& m) ∧ Logic .ora (fun a m => a ||| m) ∧ Logic .eor (fun a m => a ^^^ m)

/-- R166: BIT takes Z from A AND M, N and V from bits 7 and 6 of M, and writes no register. -/
def Obligations.BitTestsMemory : Prop :=
  Opcodes [(.zp0, 0x24), (.abs, 0x2C)] .bit ∧
  ∀ (o : Operand) (s : State), ∃ t, exec (.bit o) s = .next t ∧
    t.flag .z = decide (s.a &&& s.operandValue o = 0) ∧
    t.flag .n = decide (128 ≤ (s.operandValue o).toNat) ∧
    t.flag .v = decide ((s.operandValue o).toNat / 64 % 2 = 1) ∧
    t.temp.toNat = (s.a &&& s.operandValue o).toNat ∧ t.fetched = s.operandValue o ∧
    Sequential o false s t ∧ SameMemory s t ∧ Frame [] [.z, .n, .v] [.fetched, .temp, modeLatch o] s t

/-- R167 to R169: CMP, CPX, CPY. The hints of CPX and CPY are the spec's choice (D9, log 7). -/
def Obligations.CompareInstructions : Prop :=
  Opcodes [(.imm, 0xC9), (.zp0, 0xC5), (.zpx, 0xD5), (.abs, 0xCD), (.abx, 0xDD), (.aby, 0xD9), (.izx, 0xC1), (.izy, 0xD1)] .cmp ∧
  Opcodes [(.imm, 0xE0), (.zp0, 0xE4), (.abs, 0xEC)] .cpx ∧
  Opcodes [(.imm, 0xC0), (.zp0, 0xC4), (.abs, 0xCC)] .cpy ∧
  Compare .cmp true State.a ∧ Compare .cpx false State.x ∧ Compare .cpy false State.y

/-- R160, R30: D has no effect: every instruction but the four that write D and the two that push P gives the same state whatever
D is, but for D itself. -/
def Obligations.DecimalFlagHasNoEffect : Prop :=
  ∀ (i : Instr) (s t : State) (v : Bool), i.op ∉ [Op.cld, .sed, .plp, .rti, .php, .brk] → exec i s = .next t →
    exec i (s.setFlag .d v) = .next (t.setFlag .d v)

/-! ### Shifts and counts -/

/-- R200, R201, R202: ASL and LSR. -/
def Obligations.ShiftInstructions : Prop :=
  Opcodes [(.imp, 0x0A), (.zp0, 0x06), (.zpx, 0x16), (.abs, 0x0E), (.abx, 0x1E)] .asl ∧
  Opcodes [(.imp, 0x4A), (.zp0, 0x46), (.zpx, 0x56), (.abs, 0x4E), (.abx, 0x5E)] .lsr ∧
  Shift .asl (fun _ m => 2 * m) (fun m => decide (128 ≤ m)) ∧
  Shift .lsr (fun _ m => m / 2) (fun m => decide (m % 2 = 1))

/-- R200, R203, R204: ROL and ROR rotate through the carry. -/
def Obligations.RotateInstructions : Prop :=
  Opcodes [(.imp, 0x2A), (.zp0, 0x26), (.zpx, 0x36), (.abs, 0x2E), (.abx, 0x3E)] .rol ∧
  Opcodes [(.imp, 0x6A), (.zp0, 0x66), (.zpx, 0x76), (.abs, 0x6E), (.abx, 0x7E)] .ror ∧
  Shift .rol (fun c m => 2 * m + c) (fun m => decide (128 ≤ m)) ∧
  Shift .ror (fun c m => m / 2 + 128 * c) (fun m => decide (m % 2 = 1))

/-- R205, R206: INC and DEC count a byte of memory. -/
def Obligations.MemoryCounts : Prop :=
  Opcodes [(.zp0, 0xE6), (.zpx, 0xF6), (.abs, 0xEE), (.abx, 0xFE)] .inc ∧
  Opcodes [(.zp0, 0xC6), (.zpx, 0xD6), (.abs, 0xCE), (.abx, 0xDE)] .dec ∧
  Count .inc 1 ∧ Count .dec 65535

/-- R207 to R210: INX, INY, DEX, DEY. Their base cycles, 2, are in none of these rules: they are R425's and R95's, the spec's
supply from general knowledge (log 6 PRESUMED). -/
def Obligations.RegisterCounts : Prop :=
  OneByteOpcode 0xE8 2 .inx ∧ OneByteOpcode 0xC8 2 .iny ∧ OneByteOpcode 0xCA 2 .dex ∧ OneByteOpcode 0x88 2 .dey ∧
  CountRegister .inx .x 1 ∧ CountRegister .iny .y 1 ∧ CountRegister .dex .x 255 ∧ CountRegister .dey .y 255

/-! ### Loads, stores, transfers -/

/-- R240 to R242: LDA, LDX, LDY. -/
def Obligations.LoadInstructions : Prop :=
  Opcodes [(.imm, 0xA9), (.zp0, 0xA5), (.zpx, 0xB5), (.abs, 0xAD), (.abx, 0xBD), (.aby, 0xB9), (.izx, 0xA1), (.izy, 0xB1)] .lda ∧
  Opcodes [(.imm, 0xA2), (.zp0, 0xA6), (.zpy, 0xB6), (.abs, 0xAE), (.aby, 0xBE)] .ldx ∧
  Opcodes [(.imm, 0xA0), (.zp0, 0xA4), (.zpx, 0xB4), (.abs, 0xAC), (.abx, 0xBC)] .ldy ∧
  Load .lda .a ∧ Load .ldx .x ∧ Load .ldy .y

/-- R243 to R245: STA, STX, STY store at the effective address and nowhere else. That the target is not read is the spec's choice
(D14, log 11). -/
def Obligations.StoreInstructions : Prop :=
  Opcodes [(.zp0, 0x85), (.zpx, 0x95), (.abs, 0x8D), (.abx, 0x9D), (.aby, 0x99), (.izx, 0x81), (.izy, 0x91)] .sta ∧
  (tableRow 0x9D).baseCycles = 5 ∧ (tableRow 0x99).baseCycles = 5 ∧ (tableRow 0x91).baseCycles = 6 ∧
  Opcodes [(.zp0, 0x86), (.zpy, 0x96), (.abs, 0x8E)] .stx ∧
  Opcodes [(.zp0, 0x84), (.zpx, 0x94), (.abs, 0x8C)] .sty ∧
  Store .sta .a ∧ Store .stx .x ∧ Store .sty .y

/-- R62, R72, R74: on the RAM a read gives the last value written to the address, or what it held before; memory at creation reads
as 0; a read changes nothing. A write of the host between calls stores its byte and changes nothing else. The RAM is the default
of a parameter (D24, log 5). -/
def Obligations.ReadGivesTheLastWrite : Prop :=
  (∀ a, Memory.read [] a = 0) ∧
  (∀ (writes : List (Addr × Byte)) (m : Memory) (a : Addr),
    (writes.foldl (fun m w => m.write w.1 w.2) m).read a =
      match writes.reverse.find? (fun w => w.1 == a) with
      | some w => w.2
      | none => m.read a) ∧
  (∀ (s : State) (m : Memory) (a : Addr), s.bus = .ram m →
    s.read a = m.read a ∧ s.afterRead a = s ∧ (s.boot ≠ .noBus → call (.hostRead a) s = .next s)) ∧
  (∀ (s : State) (a : Addr) (v : Byte), s.boot ≠ .noBus → ∃ t, call (.hostWrite a v) s = .next t ∧
    Stored a v s t ∧ MemoryBut [a] s t ∧ t = { s with bus := t.bus })

/-- R246 to R251: the transfers; TXS alone writes no flag. Their base cycles, 2, are in none of these rules: they are R425's and
R95's, the spec's supply from general knowledge (log 6 PRESUMED). -/
def Obligations.TransferInstructions : Prop :=
  OneByteOpcode 0xAA 2 .tax ∧ OneByteOpcode 0xA8 2 .tay ∧ OneByteOpcode 0x8A 2 .txa ∧ OneByteOpcode 0x98 2 .tya ∧
  OneByteOpcode 0xBA 2 .tsx ∧ OneByteOpcode 0x9A 2 .txs ∧
  Transfer .tax .a .x ∧ Transfer .tay .a .y ∧ Transfer .txa .x .a ∧ Transfer .tya .y .a ∧ Transfer .tsx .sp .x ∧
  ∀ s : State, ∃ t, exec .txs s = .next t ∧ t.sp = s.x ∧ t.fetched = s.a ∧
    Sequential .imp false s t ∧ SameMemory s t ∧ Frame [.sp] [] [.fetched] s t

/-! ### Stack and flags -/

/-- R280, R281: PHA pushes A; PHP pushes P with B and U set and clears B. R27, R31: P, and the byte PHP pushes, hold flag by flag
the bits of R27. The order of write and decrement is the spec's choice (D12, log 8). -/
def Obligations.PushInstructions : Prop :=
  OneByteOpcode 0x48 3 .pha ∧ OneByteOpcode 0x08 3 .php ∧ (∀ s : State, s.p.toNat = packed s.flag) ∧
  (∀ s : State, ∃ t, exec .pha s = .next t ∧ Stored (stackAddr s.sp) s.a s t ∧ MemoryBut [stackAddr s.sp] s t ∧
    t.sp.toNat = (s.sp.toNat + 255) % 256 ∧ t.fetched = s.a ∧
    Sequential .imp false s t ∧ Frame [.sp] [] [.fetched] s t) ∧
  (∀ s : State, ∃ t, exec .php s = .next t ∧
    (∃ v, Stored (stackAddr s.sp) v s t ∧
      v.toNat = (s.flag .c).toNat + 2 * (s.flag .z).toNat + 4 * (s.flag .i).toNat + 8 * (s.flag .d).toNat + 16 + 32 +
        64 * (s.flag .v).toNat + 128 * (s.flag .n).toNat ∧
      ∀ f, getFlag f v = if f = .b ∨ f = .u then true else s.flag f) ∧
    MemoryBut [stackAddr s.sp] s t ∧ t.sp.toNat = (s.sp.toNat + 255) % 256 ∧ t.fetched = s.a ∧
    t.flag .b = false ∧ Sequential .imp false s t ∧ Frame [.sp] [.b] [.fetched] s t)

/-- R282, R283: PLA pops A with Z and N; PLP pops all of P but U, which is 1: each flag is the bit of the byte that R27 gives it.
The order of increment and read is the spec's choice (D12, log 8). -/
def Obligations.PullInstructions : Prop :=
  OneByteOpcode 0x68 4 .pla ∧ OneByteOpcode 0x28 4 .plp ∧
  (∀ s : State, ∃ t, exec .pla s = .next t ∧ t.a = s.read (stackAddr (s.sp + 1)) ∧ FlagsFollow t.a t ∧
    t.sp.toNat = (s.sp.toNat + 1) % 256 ∧ t.fetched = s.a ∧
    Sequential .imp false s t ∧ SameMemory s t ∧ Frame [.a, .sp] [.z, .n] [.fetched] s t) ∧
  (∀ s : State, ∃ t, exec .plp s = .next t ∧
    (let v := s.read (stackAddr (s.sp + 1))
     LoadedFlags v t.flag ∧ (t.flag .b).toNat = v.toNat / 16 % 2 ∧ t.flag .u = true ∧
     ∀ f, t.flag f = if f = .u then true else getFlag f v) ∧
    t.sp.toNat = (s.sp.toNat + 1) % 256 ∧ t.fetched = s.a ∧
    Sequential .imp false s t ∧ SameMemory s t ∧ Frame [.sp] [.c, .z, .i, .d, .b, .v, .n] [.fetched] s t)

/-- R66, R67, R283: on the RAM, the byte popped is the byte pushed, and S comes back, whatever runs between that keeps the byte
and S. After PHP and PLP, P is as before the push but for B and U, which are 1. The orders of push and pop are the spec's choice
(D12, log 8). -/
def Obligations.PullAfterPushGivesItBack : Prop :=
  (∀ s t u : State, OnRam s → exec .pha s = .next t → u.sp = t.sp → u.read (stackAddr s.sp) = t.read (stackAddr s.sp) →
    ∃ w, exec .pla u = .next w ∧ w.a = s.a ∧ w.sp = s.sp) ∧
  (∀ s t u : State, OnRam s → exec .php s = .next t → u.sp = t.sp → u.read (stackAddr s.sp) = t.read (stackAddr s.sp) →
    ∃ w, exec .plp u = .next w ∧ (∀ f, w.flag f = if f = .b ∨ f = .u then true else s.flag f) ∧ w.sp = s.sp)

/-- R24, R68: the stack lies in page 1 and wraps in it: no push of an instruction or an interrupt touches another page. The order
of a push is the spec's choice (D12, log 8). -/
def Obligations.StackStaysInPageOne : Prop :=
  (∀ sp : Byte, (stackAddr sp).toNat = 0x0100 + sp.toNat) ∧
  (∀ (i : Instr) (s t : State), i.op ∈ [Op.pha, .php, .jsr, .brk] → exec i s = .next t → StaysInPageOne s t) ∧
  (∀ (c : HostCall) (s t : State), c = .irq ∨ c = .nmi → call c s = .next t → StaysInPageOne s t)

/-- R284 to R290: the flag instructions. Their base cycles, 2, are in none of these rules: they are R425's and R95's, the spec's
supply from general knowledge (log 6 PRESUMED). -/
def Obligations.FlagInstructions : Prop :=
  OneByteOpcode 0x18 2 .clc ∧ OneByteOpcode 0x38 2 .sec ∧ OneByteOpcode 0xD8 2 .cld ∧ OneByteOpcode 0xF8 2 .sed ∧
  OneByteOpcode 0x58 2 .cli ∧ OneByteOpcode 0x78 2 .sei ∧ OneByteOpcode 0xB8 2 .clv ∧
  FlagWrite .clc .c false ∧ FlagWrite .sec .c true ∧ FlagWrite .cld .d false ∧ FlagWrite .sed .d true ∧
  FlagWrite .cli .i false ∧ FlagWrite .sei .i true ∧ FlagWrite .clv .v false

/-! ### Control transfer -/

/-- R320 to R328: the eight branches. The page compared is the spec's choice (D15, log 11). -/
def Obligations.BranchInstructions : Prop :=
  BranchOpcode 0x10 .bpl ∧ BranchOpcode 0x30 .bmi ∧ BranchOpcode 0x50 .bvc ∧ BranchOpcode 0x70 .bvs ∧
  BranchOpcode 0x90 .bcc ∧ BranchOpcode 0xB0 .bcs ∧ BranchOpcode 0xD0 .bne ∧ BranchOpcode 0xF0 .beq ∧
  Branch .bpl (fun s => !s.flag .n) ∧ Branch .bmi (fun s => s.flag .n) ∧
  Branch .bvc (fun s => !s.flag .v) ∧ Branch .bvs (fun s => s.flag .v) ∧
  Branch .bcc (fun s => !s.flag .c) ∧ Branch .bcs (fun s => s.flag .c) ∧
  Branch .bne (fun s => !s.flag .z) ∧ Branch .beq (fun s => s.flag .z)

/-- R329: JMP goes to the effective address. -/
def Obligations.JumpGoesToItsTarget : Prop :=
  Opcodes [(.abs, 0x4C), (.ind, 0x6C)] .jmp ∧ (tableRow 0x4C).baseCycles = 3 ∧ (tableRow 0x6C).baseCycles = 5 ∧
  ∀ (o : Operand) (s : State), ∃ t, exec (.jmp o) s = .next t ∧ t.pc = s.target o ∧ t.countdown = s.countdown ∧
    SameMemory s t ∧ Frame [] [] [modeLatch o] s t

/-- R330: JSR pushes the address of its last byte, high then low, and jumps. Where the two bytes lie rests on the order of a push
(R66), the spec's choice from general knowledge (D12, log 8 PRESUMED). -/
def Obligations.JsrPushesItsReturnAddress : Prop :=
  (∀ addr rest, decode defaultParams (0x20 :: lo addr :: hi addr :: rest) = .ok (.jsr addr, rest)) ∧ (tableRow 0x20).baseCycles = 6 ∧
  ∀ (addr : Addr) (s : State), ∃ t, exec (.jsr addr) s = .next t ∧
    t.pc = addr ∧ t.addrAbs = addr ∧ t.countdown = s.countdown ∧ t.sp.toNat = (s.sp.toNat + 254) % 256 ∧
    Stored (stackAddr s.sp) (BitVec.ofNat 8 ((s.pc + 1).toNat / 256)) s t ∧
    Stored (stackAddr (s.sp - 1)) (BitVec.ofNat 8 ((s.pc + 1).toNat % 256)) s t ∧
    MemoryBut [stackAddr s.sp, stackAddr (s.sp - 1)] s t ∧ Frame [.sp] [] [.addrAbs] s t

/-- R331: RTS pops the low byte, then the high byte, and goes to the address after the word. Where the two bytes are read rests on
the order of a pop (R67), the spec's choice from general knowledge (D12, log 8 PRESUMED). -/
def Obligations.RtsPopsAndAddsOne : Prop :=
  OneByteOpcode 0x60 6 .rts ∧
  ∀ s : State, ∃ t, exec .rts s = .next t ∧
    (let first := stackAddr (s.sp + 1)
     t.pc.toNat = (((s.afterRead first).read (stackAddr (s.sp + 2))).toNat * 256 + (s.read first).toNat + 1) % 65536) ∧
    t.sp.toNat = (s.sp.toNat + 2) % 256 ∧ t.countdown = s.countdown ∧ t.fetched = s.a ∧
    SameMemory s t ∧ Frame [.sp] [] [.fetched] s t

/-- R330, R331: on the RAM, an RTS after a JSR goes to the instruction after the JSR, with S as before, whatever the subroutine
did that left S and the two bytes as the JSR had them. Which two bytes these are rests on the orders of push and pop (R66, R67),
the spec's choice from general knowledge (D12, log 8 PRESUMED). -/
def Obligations.RtsReturnsAfterJsr : Prop :=
  ∀ (addr : Addr) (s t u : State), OnRam s → exec (.jsr addr) s = .next t → OnRam u → u.sp = t.sp →
    u.read (stackAddr s.sp) = t.read (stackAddr s.sp) →
    u.read (stackAddr (s.sp - 1)) = t.read (stackAddr (s.sp - 1)) →
    ∃ w, exec .rts u = .next w ∧ w.pc = s.pc + 2 ∧ w.sp = s.sp

/-- R332: RTI pops P, each flag at the bit that R27 gives it, with B ending 0 and U ending 1, then PC low and high, without an
increment. Where the three bytes are read rests on the order of a pop (R67), the spec's choice from general knowledge (D12, log 8
PRESUMED). -/
def Obligations.RtiRestoresStatusAndPc : Prop :=
  OneByteOpcode 0x40 6 .rti ∧
  ∀ s : State, ∃ t, exec .rti s = .next t ∧
    (let first := stackAddr (s.sp + 1)
     let second := stackAddr (s.sp + 2)
     let s1 := s.afterRead first
     LoadedFlags (s.read first) t.flag ∧
     (∀ f, t.flag f = if f = .b then false else if f = .u then true else getFlag f (s.read first)) ∧
     t.pc.toNat = ((s1.afterRead second).read (stackAddr (s.sp + 3))).toNat * 256 + (s1.read second).toNat) ∧
    t.sp.toNat = (s.sp.toNat + 3) % 256 ∧ t.countdown = s.countdown ∧ t.fetched = s.a ∧
    SameMemory s t ∧ Frame [.sp] [.c, .z, .i, .d, .b, .v, .n] [.fetched] s t

/-- R333: BRK stacks the address after its operand plus 1, and P with B and I set, sets I, and goes through the vector at 0xFFFE.
Under `BRK_MODE = IMP` the stacked address is the opcode's plus 2, under `IMM` plus 3. The parameter is the spec's choice (D3, log
2), and where the three bytes lie rests on the order of a push (R66), its choice from general knowledge (D12, log 8 PRESUMED). -/
def Obligations.BrkTakesTheInterrupt : Prop :=
  (tableRow 0x00).baseCycles = 7 ∧
  (∀ (p : Params) rest, p.brkMode = .imp → decode p (0x00 :: rest) = .ok (.brk .imp, rest)) ∧
  (∀ (p : Params) v rest, p.brkMode = .imm → decode p (0x00 :: v :: rest) = .ok (.brk (.imm v), rest)) ∧
  ∀ (o : Operand) (s : State), ∃ t, exec (.brk o) s = .next t ∧
    StackedFrame (s.pc + BitVec.ofNat 16 o.mode.operandBytes + 1)
      (fun f => if f = .b ∨ f = .i then true else s.flag f) s t ∧
    (∀ f, t.flag f = if f = .b then false else if f = .i ∨ f = .u then true else s.flag f) ∧
    FromVector 0xFFFE s t ∧
    (∃ accesses, s.instructionAccesses (.brk o) = s.modeAccesses o ++ accesses ∧
      EntryAccesses 0xFFFE s.sp accesses (s.address o).bus t) ∧
    t.sp = s.sp - 3 ∧ t.countdown = s.countdown ∧
    MemoryBut [stackAddr s.sp, stackAddr (s.sp - 1), stackAddr (s.sp - 2)] s t ∧
    Frame [.sp] [.i, .b] [modeLatch o] s t

/-- R334, R335, R97, R98: NOP and the unused rows change nothing but PC; only six NOP rows pay for a page crossing. The rows and
their base cycles (R97's, and R95's for the `???` rows) are the spec's choices (D5 to D8, logs 3, 4, 6 PRESUMED), and that a NOP
makes only the reads of its mode is too (D14, log 11). -/
def Obligations.NopAndUnusedRows : Prop :=
  OneByteOpcode 0xEA 2 (.nop 0xEA .imp) ∧
  (∀ e ∈ unofficialNops, Opcodes [(e.2, e.1)] (.nop e.1) ∧
    (tableRow e.1).baseCycles = if e.1 = 0x9C then 5 else baseCyclesOf .nop e.2) ∧
  (∀ e ∈ unusedBaseCycles, ∀ b ∈ e.2, b ∈ unusedRows ∧ OneByteOpcode b e.1 (.unused b)) ∧
  (∀ b ∈ unusedRows, ∃ e ∈ unusedBaseCycles, b ∈ e.2) ∧
  (∀ (b : Byte) (o : Operand) (s : State), ∃ t, exec (.nop b o) s = .next t ∧
    Sequential o (decide (b ∈ [0x1C, 0x3C, 0x5C, 0x7C, 0xDC, 0xFC])) s t ∧ SameMemory s t ∧
    s.instructionAccesses (.nop b o) = s.modeAccesses o ∧ Frame [] [] [modeLatch o] s t) ∧
  (∀ (b : Byte) (s : State), ∃ t, exec (.unused b) s = .next t ∧ t.fetched = s.a ∧
    Sequential .imp false s t ∧ SameMemory s t ∧ Frame [] [] [.fetched] s t)

/-! ### Interrupts and reset -/

/-- R372: while I is 1, `irq()` on a live core does nothing at all and touches no bus. That the request is not remembered is the
spec's choice (D21, log 17). -/
def Obligations.IrqIsDroppedWhileMasked : Prop :=
  ∀ s : State, s.boot = .live → s.flag .i = true → call .irq s = .next s ∧ s.irqAccesses = []

/-- R374, R373, R372: `nmi()` on a live core always runs the entry sequence, and `irq()` does while I is 0. Where the stacked
bytes lie rests on the order of a push (D12, log 8); that a call in the middle of an instruction is processed at once, on D21 (log
17). -/
def Obligations.InterruptEntrySequence : Prop :=
  ∀ s : State, s.boot = .live →
    (∃ t, call .nmi s = .next t ∧ Entry 0xFFFA 8 s t ∧ EntryAccesses 0xFFFA s.sp s.nmiAccesses s.bus t) ∧
    (s.flag .i = false → ∃ t, call .irq s = .next t ∧ Entry 0xFFFE 7 s t ∧ EntryAccesses 0xFFFE s.sp s.irqAccesses s.bus t)

/-- R378: on the RAM, RTI from an unmodified frame returns to the interrupted PC and S, with I set, B clear and U set, and every
other flag as it was. Where the stacked bytes lie rests on the order of a push and a pop (D12, log 8). -/
def Obligations.RtiReturnsFromAnInterrupt : Prop :=
  ∀ (c : HostCall) (s t u : State), OnRam s → (c = .nmi ∨ (c = .irq ∧ s.flag .i = false)) → call c s = .next t →
    OnRam u → u.sp = t.sp →
    (∀ a ∈ [stackAddr s.sp, stackAddr (s.sp - 1), stackAddr (s.sp - 2)], u.read a = t.read a) →
    ∃ w, exec .rti u = .next w ∧ w.pc = s.pc ∧ w.sp = s.sp ∧
      ∀ f, w.flag f = if f = .b then false else if f = .i ∨ f = .u then true else s.flag f

/-- R377: after `nmi()` an `irq()` is dropped; after a taken `irq()` an `nmi()` is taken as well, and its frame stacks the first
instruction of the IRQ handler above the IRQ's own frame. The signal rules are the spec's choice (D21, log 17), and where the two
frames lie rests on the order of a push (R66), its choice from general knowledge (D12, log 8 PRESUMED). -/
def Obligations.HostOrderIsThePriority : Prop :=
  ∀ s : State, s.boot = .live →
    runCalls [.nmi, .irq] s = call .nmi s ∧
    (s.flag .i = false → ∃ t u, call .irq s = .next t ∧ runCalls [.irq, .nmi] s = .next u ∧
      Entry 0xFFFE 7 s t ∧ Entry 0xFFFA 8 t u ∧
      (OnRam s → ∀ a ∈ [stackAddr s.sp, stackAddr (s.sp - 1), stackAddr (s.sp - 2)], u.read a = t.read a))

/-- R410, R38: what `reset()` leaves, from any state with a bus: two reads, no write, and 8 ticks before the first instruction.
Memory and `clock_count` are kept, and the call may come at any time: the spec's own choices (D16, D26). -/
def Obligations.ResetSequence : Prop :=
  ∀ s : State, s.boot ≠ .noBus →
    let l := s.read 0xFFFC
    let h := (s.afterRead 0xFFFC).read 0xFFFD
    ∃ t, call .reset s = .next t ∧
    t.a = 0 ∧ t.x = 0 ∧ t.y = 0 ∧ t.sp = 0xFD ∧ t.p = 0x20 ∧
    t.pc.toNat = h.toNat * 256 + l.toNat ∧
    t.fetched = 0 ∧ t.temp = 0 ∧ t.addrAbs = 0 ∧ t.addrRel = 0 ∧ t.opcode = 0 ∧
    t.countdown = 8 ∧ t.clockCount = s.clockCount ∧ t.boot = .live ∧ SameMemory s t ∧
    s.resetAccesses = [.read 0xFFFC l, .read 0xFFFD h] ∧ replay s.resetAccesses s.bus = some t.bus ∧
    runCalls (.reset :: List.replicate 8 .clock) s = .next { t with countdown := 0, clockCount := s.clockCount + 8 }

/-! ### Whole-machine rules -/

/-- R32: no tick depends on what the latches held before it: two states that differ only in the latches step to states that differ
only in the latches. -/
def Obligations.LatchesAreNeverReadAcrossInstructions : Prop :=
  ∀ s s' t : State, SameButLatches s s' → step s = .next t → ∃ t', step s' = .next t' ∧ SameButLatches t t'

/-- R69, R72, R145: the accesses of an instruction, in their order, are all of its dealings with the bus: replayed on the bus
before it, every read returns the byte in the list, and the bus at the end is the instruction's; with the opcode's read first,
they are all of the tick that starts it. On a host-supplied pair the list is exactly what the pair is called with. The operations
of R145 make the read of `fetch()` after the mode's, and then nothing but writes; PLA, PLP, RTS and RTI read the bytes they pop;
no other operation but BRK reads after its mode. The accesses and their order are the spec's choice (D14, logs 11, 24), the
addresses of the pops too (D12, log 8). -/
def Obligations.AccessSequenceAccountsForMemory : Prop :=
  (∀ (i : Instr) (s t : State), i.wf defaultParams = true → OperandAt i.operand s → exec i s = .next t →
    replay (s.instructionAccesses i) s.bus = some t.bus) ∧
  (∀ (i : Instr) (s t : State), s.boot = .live → s.countdown = 0 → i.wf defaultParams = true → InstrAt i s → step s = .next t →
    replay (s.startAccesses i) s.bus = some t.bus) ∧
  (∀ (l : List BusAccess) (pair : Nat) (calls : List BusAccess) (b : Bus),
    replay l (.host pair calls) = some b → b = .host pair (l.reverse ++ calls)) ∧
  (∀ (i : Instr) (s : State),
    let writes (ws : List (Addr × Byte)) : List BusAccess := ws.map fun w => .write w.1 w.2
    (i.op ∈ fetchingOps → ∃ ws, s.instructionAccesses i = s.modeAccesses i.operand ++
      (if i.operand = .imp then [] else [.read (s.target i.operand) (s.operandValue i.operand)]) ++ writes ws) ∧
    (i.op ∉ fetchingOps ++ [.pla, .plp, .rts, .rti, .brk] →
      ∃ ws, s.instructionAccesses i = s.modeAccesses i.operand ++ writes ws) ∧
    (i.op ∈ [Op.pla, .plp] → s.instructionAccesses i = [.read (stackAddr (s.sp + 1)) (s.read (stackAddr (s.sp + 1)))]) ∧
    (i.op = .rts → ∃ v1 v2, s.instructionAccesses i = [.read (stackAddr (s.sp + 1)) v1, .read (stackAddr (s.sp + 2)) v2]) ∧
    (i.op = .rti → ∃ v1 v2 v3, s.instructionAccesses i =
      [.read (stackAddr (s.sp + 1)) v1, .read (stackAddr (s.sp + 2)) v2, .read (stackAddr (s.sp + 3)) v3]))

/-- R76: on the RAM, a write of the host between ticks, or of any instruction before, is what the next tick fetches: the step runs
the opcode that stands at PC now. That a write is seen at once is the spec's choice (D20, log 22). -/
def Obligations.WrittenCodeIsFetched : Prop :=
  ∀ (s : State) (i : Instr), OnRam s → s.boot = .live → i.wf defaultParams = true →
    ∃ u, exec i ({ s.writeBytes s.pc (encode i) with countdown := 0 }).beginInstruction = .next u ∧
      step { s.writeBytes s.pc (encode i) with countdown := 0 } = .next u.tick
end

