-- ==== Sys2Proof/Laws/State.lean ====
section
/-! SUPPORT. One lemma for each field of State and each named update of it, so that no proof unfolds a record update. -/

namespace Sys2Proof.Machine

/-! ### setA -/

@[simp] theorem State.setA_a (v : Byte) (s : State) : (s.setA v).a = v := rfl
@[simp] theorem State.setA_x (v : Byte) (s : State) : (s.setA v).x = s.x := rfl
@[simp] theorem State.setA_y (v : Byte) (s : State) : (s.setA v).y = s.y := rfl
@[simp] theorem State.setA_sp (v : Byte) (s : State) : (s.setA v).sp = s.sp := rfl
@[simp] theorem State.setA_p (v : Byte) (s : State) : (s.setA v).p = s.p := rfl
@[simp] theorem State.setA_pc (v : Byte) (s : State) : (s.setA v).pc = s.pc := rfl
@[simp] theorem State.setA_fetched (v : Byte) (s : State) : (s.setA v).fetched = s.fetched := rfl
@[simp] theorem State.setA_temp (v : Byte) (s : State) : (s.setA v).temp = s.temp := rfl
@[simp] theorem State.setA_addrAbs (v : Byte) (s : State) : (s.setA v).addrAbs = s.addrAbs := rfl
@[simp] theorem State.setA_addrRel (v : Byte) (s : State) : (s.setA v).addrRel = s.addrRel := rfl
@[simp] theorem State.setA_opcode (v : Byte) (s : State) : (s.setA v).opcode = s.opcode := rfl
@[simp] theorem State.setA_countdown (v : Byte) (s : State) : (s.setA v).countdown = s.countdown := rfl
@[simp] theorem State.setA_clockCount (v : Byte) (s : State) : (s.setA v).clockCount = s.clockCount := rfl
@[simp] theorem State.setA_bus (v : Byte) (s : State) : (s.setA v).bus = s.bus := rfl
@[simp] theorem State.setA_boot (v : Byte) (s : State) : (s.setA v).boot = s.boot := rfl
@[simp] theorem State.setA_flag (v : Byte) (s : State) (g : Flag) : (s.setA v).flag g = s.flag g := rfl
@[simp] theorem State.setA_read (v : Byte) (s : State) (k : Addr) : (s.setA v).read k = s.read k := rfl

/-! ### setX -/

@[simp] theorem State.setX_a (v : Byte) (s : State) : (s.setX v).a = s.a := rfl
@[simp] theorem State.setX_x (v : Byte) (s : State) : (s.setX v).x = v := rfl
@[simp] theorem State.setX_y (v : Byte) (s : State) : (s.setX v).y = s.y := rfl
@[simp] theorem State.setX_sp (v : Byte) (s : State) : (s.setX v).sp = s.sp := rfl
@[simp] theorem State.setX_p (v : Byte) (s : State) : (s.setX v).p = s.p := rfl
@[simp] theorem State.setX_pc (v : Byte) (s : State) : (s.setX v).pc = s.pc := rfl
@[simp] theorem State.setX_fetched (v : Byte) (s : State) : (s.setX v).fetched = s.fetched := rfl
@[simp] theorem State.setX_temp (v : Byte) (s : State) : (s.setX v).temp = s.temp := rfl
@[simp] theorem State.setX_addrAbs (v : Byte) (s : State) : (s.setX v).addrAbs = s.addrAbs := rfl
@[simp] theorem State.setX_addrRel (v : Byte) (s : State) : (s.setX v).addrRel = s.addrRel := rfl
@[simp] theorem State.setX_opcode (v : Byte) (s : State) : (s.setX v).opcode = s.opcode := rfl
@[simp] theorem State.setX_countdown (v : Byte) (s : State) : (s.setX v).countdown = s.countdown := rfl
@[simp] theorem State.setX_clockCount (v : Byte) (s : State) : (s.setX v).clockCount = s.clockCount := rfl
@[simp] theorem State.setX_bus (v : Byte) (s : State) : (s.setX v).bus = s.bus := rfl
@[simp] theorem State.setX_boot (v : Byte) (s : State) : (s.setX v).boot = s.boot := rfl
@[simp] theorem State.setX_flag (v : Byte) (s : State) (g : Flag) : (s.setX v).flag g = s.flag g := rfl
@[simp] theorem State.setX_read (v : Byte) (s : State) (k : Addr) : (s.setX v).read k = s.read k := rfl

/-! ### setY -/

@[simp] theorem State.setY_a (v : Byte) (s : State) : (s.setY v).a = s.a := rfl
@[simp] theorem State.setY_x (v : Byte) (s : State) : (s.setY v).x = s.x := rfl
@[simp] theorem State.setY_y (v : Byte) (s : State) : (s.setY v).y = v := rfl
@[simp] theorem State.setY_sp (v : Byte) (s : State) : (s.setY v).sp = s.sp := rfl
@[simp] theorem State.setY_p (v : Byte) (s : State) : (s.setY v).p = s.p := rfl
@[simp] theorem State.setY_pc (v : Byte) (s : State) : (s.setY v).pc = s.pc := rfl
@[simp] theorem State.setY_fetched (v : Byte) (s : State) : (s.setY v).fetched = s.fetched := rfl
@[simp] theorem State.setY_temp (v : Byte) (s : State) : (s.setY v).temp = s.temp := rfl
@[simp] theorem State.setY_addrAbs (v : Byte) (s : State) : (s.setY v).addrAbs = s.addrAbs := rfl
@[simp] theorem State.setY_addrRel (v : Byte) (s : State) : (s.setY v).addrRel = s.addrRel := rfl
@[simp] theorem State.setY_opcode (v : Byte) (s : State) : (s.setY v).opcode = s.opcode := rfl
@[simp] theorem State.setY_countdown (v : Byte) (s : State) : (s.setY v).countdown = s.countdown := rfl
@[simp] theorem State.setY_clockCount (v : Byte) (s : State) : (s.setY v).clockCount = s.clockCount := rfl
@[simp] theorem State.setY_bus (v : Byte) (s : State) : (s.setY v).bus = s.bus := rfl
@[simp] theorem State.setY_boot (v : Byte) (s : State) : (s.setY v).boot = s.boot := rfl
@[simp] theorem State.setY_flag (v : Byte) (s : State) (g : Flag) : (s.setY v).flag g = s.flag g := rfl
@[simp] theorem State.setY_read (v : Byte) (s : State) (k : Addr) : (s.setY v).read k = s.read k := rfl

/-! ### setSp -/

@[simp] theorem State.setSp_a (v : Byte) (s : State) : (s.setSp v).a = s.a := rfl
@[simp] theorem State.setSp_x (v : Byte) (s : State) : (s.setSp v).x = s.x := rfl
@[simp] theorem State.setSp_y (v : Byte) (s : State) : (s.setSp v).y = s.y := rfl
@[simp] theorem State.setSp_sp (v : Byte) (s : State) : (s.setSp v).sp = v := rfl
@[simp] theorem State.setSp_p (v : Byte) (s : State) : (s.setSp v).p = s.p := rfl
@[simp] theorem State.setSp_pc (v : Byte) (s : State) : (s.setSp v).pc = s.pc := rfl
@[simp] theorem State.setSp_fetched (v : Byte) (s : State) : (s.setSp v).fetched = s.fetched := rfl
@[simp] theorem State.setSp_temp (v : Byte) (s : State) : (s.setSp v).temp = s.temp := rfl
@[simp] theorem State.setSp_addrAbs (v : Byte) (s : State) : (s.setSp v).addrAbs = s.addrAbs := rfl
@[simp] theorem State.setSp_addrRel (v : Byte) (s : State) : (s.setSp v).addrRel = s.addrRel := rfl
@[simp] theorem State.setSp_opcode (v : Byte) (s : State) : (s.setSp v).opcode = s.opcode := rfl
@[simp] theorem State.setSp_countdown (v : Byte) (s : State) : (s.setSp v).countdown = s.countdown := rfl
@[simp] theorem State.setSp_clockCount (v : Byte) (s : State) : (s.setSp v).clockCount = s.clockCount := rfl
@[simp] theorem State.setSp_bus (v : Byte) (s : State) : (s.setSp v).bus = s.bus := rfl
@[simp] theorem State.setSp_boot (v : Byte) (s : State) : (s.setSp v).boot = s.boot := rfl
@[simp] theorem State.setSp_flag (v : Byte) (s : State) (g : Flag) : (s.setSp v).flag g = s.flag g := rfl
@[simp] theorem State.setSp_read (v : Byte) (s : State) (k : Addr) : (s.setSp v).read k = s.read k := rfl

/-! ### setP -/

@[simp] theorem State.setP_a (v : Byte) (s : State) : (s.setP v).a = s.a := rfl
@[simp] theorem State.setP_x (v : Byte) (s : State) : (s.setP v).x = s.x := rfl
@[simp] theorem State.setP_y (v : Byte) (s : State) : (s.setP v).y = s.y := rfl
@[simp] theorem State.setP_sp (v : Byte) (s : State) : (s.setP v).sp = s.sp := rfl
@[simp] theorem State.setP_p (v : Byte) (s : State) : (s.setP v).p = v := rfl
@[simp] theorem State.setP_pc (v : Byte) (s : State) : (s.setP v).pc = s.pc := rfl
@[simp] theorem State.setP_fetched (v : Byte) (s : State) : (s.setP v).fetched = s.fetched := rfl
@[simp] theorem State.setP_temp (v : Byte) (s : State) : (s.setP v).temp = s.temp := rfl
@[simp] theorem State.setP_addrAbs (v : Byte) (s : State) : (s.setP v).addrAbs = s.addrAbs := rfl
@[simp] theorem State.setP_addrRel (v : Byte) (s : State) : (s.setP v).addrRel = s.addrRel := rfl
@[simp] theorem State.setP_opcode (v : Byte) (s : State) : (s.setP v).opcode = s.opcode := rfl
@[simp] theorem State.setP_countdown (v : Byte) (s : State) : (s.setP v).countdown = s.countdown := rfl
@[simp] theorem State.setP_clockCount (v : Byte) (s : State) : (s.setP v).clockCount = s.clockCount := rfl
@[simp] theorem State.setP_bus (v : Byte) (s : State) : (s.setP v).bus = s.bus := rfl
@[simp] theorem State.setP_boot (v : Byte) (s : State) : (s.setP v).boot = s.boot := rfl
@[simp] theorem State.setP_read (v : Byte) (s : State) (k : Addr) : (s.setP v).read k = s.read k := rfl

/-! ### setPc -/

@[simp] theorem State.setPc_a (v : Addr) (s : State) : (s.setPc v).a = s.a := rfl
@[simp] theorem State.setPc_x (v : Addr) (s : State) : (s.setPc v).x = s.x := rfl
@[simp] theorem State.setPc_y (v : Addr) (s : State) : (s.setPc v).y = s.y := rfl
@[simp] theorem State.setPc_sp (v : Addr) (s : State) : (s.setPc v).sp = s.sp := rfl
@[simp] theorem State.setPc_p (v : Addr) (s : State) : (s.setPc v).p = s.p := rfl
@[simp] theorem State.setPc_pc (v : Addr) (s : State) : (s.setPc v).pc = v := rfl
@[simp] theorem State.setPc_fetched (v : Addr) (s : State) : (s.setPc v).fetched = s.fetched := rfl
@[simp] theorem State.setPc_temp (v : Addr) (s : State) : (s.setPc v).temp = s.temp := rfl
@[simp] theorem State.setPc_addrAbs (v : Addr) (s : State) : (s.setPc v).addrAbs = s.addrAbs := rfl
@[simp] theorem State.setPc_addrRel (v : Addr) (s : State) : (s.setPc v).addrRel = s.addrRel := rfl
@[simp] theorem State.setPc_opcode (v : Addr) (s : State) : (s.setPc v).opcode = s.opcode := rfl
@[simp] theorem State.setPc_countdown (v : Addr) (s : State) : (s.setPc v).countdown = s.countdown := rfl
@[simp] theorem State.setPc_clockCount (v : Addr) (s : State) : (s.setPc v).clockCount = s.clockCount := rfl
@[simp] theorem State.setPc_bus (v : Addr) (s : State) : (s.setPc v).bus = s.bus := rfl
@[simp] theorem State.setPc_boot (v : Addr) (s : State) : (s.setPc v).boot = s.boot := rfl
@[simp] theorem State.setPc_flag (v : Addr) (s : State) (g : Flag) : (s.setPc v).flag g = s.flag g := rfl
@[simp] theorem State.setPc_read (v : Addr) (s : State) (k : Addr) : (s.setPc v).read k = s.read k := rfl

/-! ### setFetched -/

@[simp] theorem State.setFetched_a (v : Byte) (s : State) : (s.setFetched v).a = s.a := rfl
@[simp] theorem State.setFetched_x (v : Byte) (s : State) : (s.setFetched v).x = s.x := rfl
@[simp] theorem State.setFetched_y (v : Byte) (s : State) : (s.setFetched v).y = s.y := rfl
@[simp] theorem State.setFetched_sp (v : Byte) (s : State) : (s.setFetched v).sp = s.sp := rfl
@[simp] theorem State.setFetched_p (v : Byte) (s : State) : (s.setFetched v).p = s.p := rfl
@[simp] theorem State.setFetched_pc (v : Byte) (s : State) : (s.setFetched v).pc = s.pc := rfl
@[simp] theorem State.setFetched_fetched (v : Byte) (s : State) : (s.setFetched v).fetched = v := rfl
@[simp] theorem State.setFetched_temp (v : Byte) (s : State) : (s.setFetched v).temp = s.temp := rfl
@[simp] theorem State.setFetched_addrAbs (v : Byte) (s : State) : (s.setFetched v).addrAbs = s.addrAbs := rfl
@[simp] theorem State.setFetched_addrRel (v : Byte) (s : State) : (s.setFetched v).addrRel = s.addrRel := rfl
@[simp] theorem State.setFetched_opcode (v : Byte) (s : State) : (s.setFetched v).opcode = s.opcode := rfl
@[simp] theorem State.setFetched_countdown (v : Byte) (s : State) : (s.setFetched v).countdown = s.countdown := rfl
@[simp] theorem State.setFetched_clockCount (v : Byte) (s : State) : (s.setFetched v).clockCount = s.clockCount := rfl
@[simp] theorem State.setFetched_bus (v : Byte) (s : State) : (s.setFetched v).bus = s.bus := rfl
@[simp] theorem State.setFetched_boot (v : Byte) (s : State) : (s.setFetched v).boot = s.boot := rfl
@[simp] theorem State.setFetched_flag (v : Byte) (s : State) (g : Flag) : (s.setFetched v).flag g = s.flag g := rfl
@[simp] theorem State.setFetched_read (v : Byte) (s : State) (k : Addr) : (s.setFetched v).read k = s.read k := rfl

/-! ### setTemp -/

@[simp] theorem State.setTemp_a (v : Addr) (s : State) : (s.setTemp v).a = s.a := rfl
@[simp] theorem State.setTemp_x (v : Addr) (s : State) : (s.setTemp v).x = s.x := rfl
@[simp] theorem State.setTemp_y (v : Addr) (s : State) : (s.setTemp v).y = s.y := rfl
@[simp] theorem State.setTemp_sp (v : Addr) (s : State) : (s.setTemp v).sp = s.sp := rfl
@[simp] theorem State.setTemp_p (v : Addr) (s : State) : (s.setTemp v).p = s.p := rfl
@[simp] theorem State.setTemp_pc (v : Addr) (s : State) : (s.setTemp v).pc = s.pc := rfl
@[simp] theorem State.setTemp_fetched (v : Addr) (s : State) : (s.setTemp v).fetched = s.fetched := rfl
@[simp] theorem State.setTemp_temp (v : Addr) (s : State) : (s.setTemp v).temp = v := rfl
@[simp] theorem State.setTemp_addrAbs (v : Addr) (s : State) : (s.setTemp v).addrAbs = s.addrAbs := rfl
@[simp] theorem State.setTemp_addrRel (v : Addr) (s : State) : (s.setTemp v).addrRel = s.addrRel := rfl
@[simp] theorem State.setTemp_opcode (v : Addr) (s : State) : (s.setTemp v).opcode = s.opcode := rfl
@[simp] theorem State.setTemp_countdown (v : Addr) (s : State) : (s.setTemp v).countdown = s.countdown := rfl
@[simp] theorem State.setTemp_clockCount (v : Addr) (s : State) : (s.setTemp v).clockCount = s.clockCount := rfl
@[simp] theorem State.setTemp_bus (v : Addr) (s : State) : (s.setTemp v).bus = s.bus := rfl
@[simp] theorem State.setTemp_boot (v : Addr) (s : State) : (s.setTemp v).boot = s.boot := rfl
@[simp] theorem State.setTemp_flag (v : Addr) (s : State) (g : Flag) : (s.setTemp v).flag g = s.flag g := rfl
@[simp] theorem State.setTemp_read (v : Addr) (s : State) (k : Addr) : (s.setTemp v).read k = s.read k := rfl

/-! ### setAddrAbs -/

@[simp] theorem State.setAddrAbs_a (v : Addr) (s : State) : (s.setAddrAbs v).a = s.a := rfl
@[simp] theorem State.setAddrAbs_x (v : Addr) (s : State) : (s.setAddrAbs v).x = s.x := rfl
@[simp] theorem State.setAddrAbs_y (v : Addr) (s : State) : (s.setAddrAbs v).y = s.y := rfl
@[simp] theorem State.setAddrAbs_sp (v : Addr) (s : State) : (s.setAddrAbs v).sp = s.sp := rfl
@[simp] theorem State.setAddrAbs_p (v : Addr) (s : State) : (s.setAddrAbs v).p = s.p := rfl
@[simp] theorem State.setAddrAbs_pc (v : Addr) (s : State) : (s.setAddrAbs v).pc = s.pc := rfl
@[simp] theorem State.setAddrAbs_fetched (v : Addr) (s : State) : (s.setAddrAbs v).fetched = s.fetched := rfl
@[simp] theorem State.setAddrAbs_temp (v : Addr) (s : State) : (s.setAddrAbs v).temp = s.temp := rfl
@[simp] theorem State.setAddrAbs_addrAbs (v : Addr) (s : State) : (s.setAddrAbs v).addrAbs = v := rfl
@[simp] theorem State.setAddrAbs_addrRel (v : Addr) (s : State) : (s.setAddrAbs v).addrRel = s.addrRel := rfl
@[simp] theorem State.setAddrAbs_opcode (v : Addr) (s : State) : (s.setAddrAbs v).opcode = s.opcode := rfl
@[simp] theorem State.setAddrAbs_countdown (v : Addr) (s : State) : (s.setAddrAbs v).countdown = s.countdown := rfl
@[simp] theorem State.setAddrAbs_clockCount (v : Addr) (s : State) : (s.setAddrAbs v).clockCount = s.clockCount := rfl
@[simp] theorem State.setAddrAbs_bus (v : Addr) (s : State) : (s.setAddrAbs v).bus = s.bus := rfl
@[simp] theorem State.setAddrAbs_boot (v : Addr) (s : State) : (s.setAddrAbs v).boot = s.boot := rfl
@[simp] theorem State.setAddrAbs_flag (v : Addr) (s : State) (g : Flag) : (s.setAddrAbs v).flag g = s.flag g := rfl
@[simp] theorem State.setAddrAbs_read (v : Addr) (s : State) (k : Addr) : (s.setAddrAbs v).read k = s.read k := rfl

/-! ### setAddrRel -/

@[simp] theorem State.setAddrRel_a (v : Addr) (s : State) : (s.setAddrRel v).a = s.a := rfl
@[simp] theorem State.setAddrRel_x (v : Addr) (s : State) : (s.setAddrRel v).x = s.x := rfl
@[simp] theorem State.setAddrRel_y (v : Addr) (s : State) : (s.setAddrRel v).y = s.y := rfl
@[simp] theorem State.setAddrRel_sp (v : Addr) (s : State) : (s.setAddrRel v).sp = s.sp := rfl
@[simp] theorem State.setAddrRel_p (v : Addr) (s : State) : (s.setAddrRel v).p = s.p := rfl
@[simp] theorem State.setAddrRel_pc (v : Addr) (s : State) : (s.setAddrRel v).pc = s.pc := rfl
@[simp] theorem State.setAddrRel_fetched (v : Addr) (s : State) : (s.setAddrRel v).fetched = s.fetched := rfl
@[simp] theorem State.setAddrRel_temp (v : Addr) (s : State) : (s.setAddrRel v).temp = s.temp := rfl
@[simp] theorem State.setAddrRel_addrAbs (v : Addr) (s : State) : (s.setAddrRel v).addrAbs = s.addrAbs := rfl
@[simp] theorem State.setAddrRel_addrRel (v : Addr) (s : State) : (s.setAddrRel v).addrRel = v := rfl
@[simp] theorem State.setAddrRel_opcode (v : Addr) (s : State) : (s.setAddrRel v).opcode = s.opcode := rfl
@[simp] theorem State.setAddrRel_countdown (v : Addr) (s : State) : (s.setAddrRel v).countdown = s.countdown := rfl
@[simp] theorem State.setAddrRel_clockCount (v : Addr) (s : State) : (s.setAddrRel v).clockCount = s.clockCount := rfl
@[simp] theorem State.setAddrRel_bus (v : Addr) (s : State) : (s.setAddrRel v).bus = s.bus := rfl
@[simp] theorem State.setAddrRel_boot (v : Addr) (s : State) : (s.setAddrRel v).boot = s.boot := rfl
@[simp] theorem State.setAddrRel_flag (v : Addr) (s : State) (g : Flag) : (s.setAddrRel v).flag g = s.flag g := rfl
@[simp] theorem State.setAddrRel_read (v : Addr) (s : State) (k : Addr) : (s.setAddrRel v).read k = s.read k := rfl

/-! ### addCycles -/

@[simp] theorem State.addCycles_a (n : Nat) (s : State) : (s.addCycles n).a = s.a := rfl
@[simp] theorem State.addCycles_x (n : Nat) (s : State) : (s.addCycles n).x = s.x := rfl
@[simp] theorem State.addCycles_y (n : Nat) (s : State) : (s.addCycles n).y = s.y := rfl
@[simp] theorem State.addCycles_sp (n : Nat) (s : State) : (s.addCycles n).sp = s.sp := rfl
@[simp] theorem State.addCycles_p (n : Nat) (s : State) : (s.addCycles n).p = s.p := rfl
@[simp] theorem State.addCycles_pc (n : Nat) (s : State) : (s.addCycles n).pc = s.pc := rfl
@[simp] theorem State.addCycles_fetched (n : Nat) (s : State) : (s.addCycles n).fetched = s.fetched := rfl
@[simp] theorem State.addCycles_temp (n : Nat) (s : State) : (s.addCycles n).temp = s.temp := rfl
@[simp] theorem State.addCycles_addrAbs (n : Nat) (s : State) : (s.addCycles n).addrAbs = s.addrAbs := rfl
@[simp] theorem State.addCycles_addrRel (n : Nat) (s : State) : (s.addCycles n).addrRel = s.addrRel := rfl
@[simp] theorem State.addCycles_opcode (n : Nat) (s : State) : (s.addCycles n).opcode = s.opcode := rfl
@[simp] theorem State.addCycles_countdown (n : Nat) (s : State) : (s.addCycles n).countdown = s.countdown + n := rfl
@[simp] theorem State.addCycles_clockCount (n : Nat) (s : State) : (s.addCycles n).clockCount = s.clockCount := rfl
@[simp] theorem State.addCycles_bus (n : Nat) (s : State) : (s.addCycles n).bus = s.bus := rfl
@[simp] theorem State.addCycles_boot (n : Nat) (s : State) : (s.addCycles n).boot = s.boot := rfl
@[simp] theorem State.addCycles_flag (n : Nat) (s : State) (g : Flag) : (s.addCycles n).flag g = s.flag g := rfl
@[simp] theorem State.addCycles_read (n : Nat) (s : State) (k : Addr) : (s.addCycles n).read k = s.read k := rfl

/-! ### setFlag -/

@[simp] theorem State.setFlag_a (f : Flag) (b : Bool) (s : State) : (s.setFlag f b).a = s.a := rfl
@[simp] theorem State.setFlag_x (f : Flag) (b : Bool) (s : State) : (s.setFlag f b).x = s.x := rfl
@[simp] theorem State.setFlag_y (f : Flag) (b : Bool) (s : State) : (s.setFlag f b).y = s.y := rfl
@[simp] theorem State.setFlag_sp (f : Flag) (b : Bool) (s : State) : (s.setFlag f b).sp = s.sp := rfl
@[simp] theorem State.setFlag_p (f : Flag) (b : Bool) (s : State) : (s.setFlag f b).p = putFlag f b s.p := rfl
@[simp] theorem State.setFlag_pc (f : Flag) (b : Bool) (s : State) : (s.setFlag f b).pc = s.pc := rfl
@[simp] theorem State.setFlag_fetched (f : Flag) (b : Bool) (s : State) : (s.setFlag f b).fetched = s.fetched := rfl
@[simp] theorem State.setFlag_temp (f : Flag) (b : Bool) (s : State) : (s.setFlag f b).temp = s.temp := rfl
@[simp] theorem State.setFlag_addrAbs (f : Flag) (b : Bool) (s : State) : (s.setFlag f b).addrAbs = s.addrAbs := rfl
@[simp] theorem State.setFlag_addrRel (f : Flag) (b : Bool) (s : State) : (s.setFlag f b).addrRel = s.addrRel := rfl
@[simp] theorem State.setFlag_opcode (f : Flag) (b : Bool) (s : State) : (s.setFlag f b).opcode = s.opcode := rfl
@[simp] theorem State.setFlag_countdown (f : Flag) (b : Bool) (s : State) : (s.setFlag f b).countdown = s.countdown := rfl
@[simp] theorem State.setFlag_clockCount (f : Flag) (b : Bool) (s : State) : (s.setFlag f b).clockCount = s.clockCount := rfl
@[simp] theorem State.setFlag_bus (f : Flag) (b : Bool) (s : State) : (s.setFlag f b).bus = s.bus := rfl
@[simp] theorem State.setFlag_boot (f : Flag) (b : Bool) (s : State) : (s.setFlag f b).boot = s.boot := rfl
@[simp] theorem State.setFlag_read (f : Flag) (b : Bool) (s : State) (k : Addr) : (s.setFlag f b).read k = s.read k := rfl

/-! ### nz -/

@[simp] theorem State.nz_a (v : Byte) (s : State) : (s.nz v).a = s.a := rfl
@[simp] theorem State.nz_x (v : Byte) (s : State) : (s.nz v).x = s.x := rfl
@[simp] theorem State.nz_y (v : Byte) (s : State) : (s.nz v).y = s.y := rfl
@[simp] theorem State.nz_sp (v : Byte) (s : State) : (s.nz v).sp = s.sp := rfl
@[simp] theorem State.nz_p (v : Byte) (s : State) : (s.nz v).p = putFlag .n v.msb (putFlag .z (v == 0) s.p) := rfl
@[simp] theorem State.nz_pc (v : Byte) (s : State) : (s.nz v).pc = s.pc := rfl
@[simp] theorem State.nz_fetched (v : Byte) (s : State) : (s.nz v).fetched = s.fetched := rfl
@[simp] theorem State.nz_temp (v : Byte) (s : State) : (s.nz v).temp = s.temp := rfl
@[simp] theorem State.nz_addrAbs (v : Byte) (s : State) : (s.nz v).addrAbs = s.addrAbs := rfl
@[simp] theorem State.nz_addrRel (v : Byte) (s : State) : (s.nz v).addrRel = s.addrRel := rfl
@[simp] theorem State.nz_opcode (v : Byte) (s : State) : (s.nz v).opcode = s.opcode := rfl
@[simp] theorem State.nz_countdown (v : Byte) (s : State) : (s.nz v).countdown = s.countdown := rfl
@[simp] theorem State.nz_clockCount (v : Byte) (s : State) : (s.nz v).clockCount = s.clockCount := rfl
@[simp] theorem State.nz_bus (v : Byte) (s : State) : (s.nz v).bus = s.bus := rfl
@[simp] theorem State.nz_boot (v : Byte) (s : State) : (s.nz v).boot = s.boot := rfl
@[simp] theorem State.nz_read (v : Byte) (s : State) (k : Addr) : (s.nz v).read k = s.read k := rfl

/-! ### afterRead -/

@[simp] theorem State.afterRead_a (a : Addr) (s : State) : (s.afterRead a).a = s.a := rfl
@[simp] theorem State.afterRead_x (a : Addr) (s : State) : (s.afterRead a).x = s.x := rfl
@[simp] theorem State.afterRead_y (a : Addr) (s : State) : (s.afterRead a).y = s.y := rfl
@[simp] theorem State.afterRead_sp (a : Addr) (s : State) : (s.afterRead a).sp = s.sp := rfl
@[simp] theorem State.afterRead_p (a : Addr) (s : State) : (s.afterRead a).p = s.p := rfl
@[simp] theorem State.afterRead_pc (a : Addr) (s : State) : (s.afterRead a).pc = s.pc := rfl
@[simp] theorem State.afterRead_fetched (a : Addr) (s : State) : (s.afterRead a).fetched = s.fetched := rfl
@[simp] theorem State.afterRead_temp (a : Addr) (s : State) : (s.afterRead a).temp = s.temp := rfl
@[simp] theorem State.afterRead_addrAbs (a : Addr) (s : State) : (s.afterRead a).addrAbs = s.addrAbs := rfl
@[simp] theorem State.afterRead_addrRel (a : Addr) (s : State) : (s.afterRead a).addrRel = s.addrRel := rfl
@[simp] theorem State.afterRead_opcode (a : Addr) (s : State) : (s.afterRead a).opcode = s.opcode := rfl
@[simp] theorem State.afterRead_countdown (a : Addr) (s : State) : (s.afterRead a).countdown = s.countdown := rfl
@[simp] theorem State.afterRead_clockCount (a : Addr) (s : State) : (s.afterRead a).clockCount = s.clockCount := rfl
@[simp] theorem State.afterRead_bus (a : Addr) (s : State) : (s.afterRead a).bus = s.bus.afterRead a := rfl
@[simp] theorem State.afterRead_boot (a : Addr) (s : State) : (s.afterRead a).boot = s.boot := rfl
@[simp] theorem State.afterRead_flag (a : Addr) (s : State) (g : Flag) : (s.afterRead a).flag g = s.flag g := rfl

/-! ### write -/

@[simp] theorem State.write_a (a : Addr) (v : Byte) (s : State) : (s.write a v).a = s.a := rfl
@[simp] theorem State.write_x (a : Addr) (v : Byte) (s : State) : (s.write a v).x = s.x := rfl
@[simp] theorem State.write_y (a : Addr) (v : Byte) (s : State) : (s.write a v).y = s.y := rfl
@[simp] theorem State.write_sp (a : Addr) (v : Byte) (s : State) : (s.write a v).sp = s.sp := rfl
@[simp] theorem State.write_p (a : Addr) (v : Byte) (s : State) : (s.write a v).p = s.p := rfl
@[simp] theorem State.write_pc (a : Addr) (v : Byte) (s : State) : (s.write a v).pc = s.pc := rfl
@[simp] theorem State.write_fetched (a : Addr) (v : Byte) (s : State) : (s.write a v).fetched = s.fetched := rfl
@[simp] theorem State.write_temp (a : Addr) (v : Byte) (s : State) : (s.write a v).temp = s.temp := rfl
@[simp] theorem State.write_addrAbs (a : Addr) (v : Byte) (s : State) : (s.write a v).addrAbs = s.addrAbs := rfl
@[simp] theorem State.write_addrRel (a : Addr) (v : Byte) (s : State) : (s.write a v).addrRel = s.addrRel := rfl
@[simp] theorem State.write_opcode (a : Addr) (v : Byte) (s : State) : (s.write a v).opcode = s.opcode := rfl
@[simp] theorem State.write_countdown (a : Addr) (v : Byte) (s : State) : (s.write a v).countdown = s.countdown := rfl
@[simp] theorem State.write_clockCount (a : Addr) (v : Byte) (s : State) : (s.write a v).clockCount = s.clockCount := rfl
@[simp] theorem State.write_bus (a : Addr) (v : Byte) (s : State) : (s.write a v).bus = s.bus.write a v := rfl
@[simp] theorem State.write_boot (a : Addr) (v : Byte) (s : State) : (s.write a v).boot = s.boot := rfl
@[simp] theorem State.write_flag (a : Addr) (v : Byte) (s : State) (g : Flag) : (s.write a v).flag g = s.flag g := rfl

/-! ### push -/

@[simp] theorem State.push_a (v : Byte) (s : State) : (s.push v).a = s.a := rfl
@[simp] theorem State.push_x (v : Byte) (s : State) : (s.push v).x = s.x := rfl
@[simp] theorem State.push_y (v : Byte) (s : State) : (s.push v).y = s.y := rfl
@[simp] theorem State.push_sp (v : Byte) (s : State) : (s.push v).sp = s.sp - 1 := rfl
@[simp] theorem State.push_p (v : Byte) (s : State) : (s.push v).p = s.p := rfl
@[simp] theorem State.push_pc (v : Byte) (s : State) : (s.push v).pc = s.pc := rfl
@[simp] theorem State.push_fetched (v : Byte) (s : State) : (s.push v).fetched = s.fetched := rfl
@[simp] theorem State.push_temp (v : Byte) (s : State) : (s.push v).temp = s.temp := rfl
@[simp] theorem State.push_addrAbs (v : Byte) (s : State) : (s.push v).addrAbs = s.addrAbs := rfl
@[simp] theorem State.push_addrRel (v : Byte) (s : State) : (s.push v).addrRel = s.addrRel := rfl
@[simp] theorem State.push_opcode (v : Byte) (s : State) : (s.push v).opcode = s.opcode := rfl
@[simp] theorem State.push_countdown (v : Byte) (s : State) : (s.push v).countdown = s.countdown := rfl
@[simp] theorem State.push_clockCount (v : Byte) (s : State) : (s.push v).clockCount = s.clockCount := rfl
@[simp] theorem State.push_bus (v : Byte) (s : State) : (s.push v).bus = s.bus.write (stackAddr s.sp) v := rfl
@[simp] theorem State.push_boot (v : Byte) (s : State) : (s.push v).boot = s.boot := rfl
@[simp] theorem State.push_flag (v : Byte) (s : State) (g : Flag) : (s.push v).flag g = s.flag g := rfl

/-! ### pull -/

@[simp] theorem State.pull_a (s : State) : s.pull.a = s.a := rfl
@[simp] theorem State.pull_x (s : State) : s.pull.x = s.x := rfl
@[simp] theorem State.pull_y (s : State) : s.pull.y = s.y := rfl
@[simp] theorem State.pull_sp (s : State) : s.pull.sp = s.sp + 1 := rfl
@[simp] theorem State.pull_p (s : State) : s.pull.p = s.p := rfl
@[simp] theorem State.pull_pc (s : State) : s.pull.pc = s.pc := rfl
@[simp] theorem State.pull_fetched (s : State) : s.pull.fetched = s.fetched := rfl
@[simp] theorem State.pull_temp (s : State) : s.pull.temp = s.temp := rfl
@[simp] theorem State.pull_addrAbs (s : State) : s.pull.addrAbs = s.addrAbs := rfl
@[simp] theorem State.pull_addrRel (s : State) : s.pull.addrRel = s.addrRel := rfl
@[simp] theorem State.pull_opcode (s : State) : s.pull.opcode = s.opcode := rfl
@[simp] theorem State.pull_countdown (s : State) : s.pull.countdown = s.countdown := rfl
@[simp] theorem State.pull_clockCount (s : State) : s.pull.clockCount = s.clockCount := rfl
@[simp] theorem State.pull_bus (s : State) : s.pull.bus = s.bus.afterRead (stackAddr (s.sp + 1)) := rfl
@[simp] theorem State.pull_boot (s : State) : s.pull.boot = s.boot := rfl
@[simp] theorem State.pull_flag (s : State) (g : Flag) : s.pull.flag g = s.flag g := rfl

/-! ### pushWord -/

@[simp] theorem State.pushWord_a (v : Addr) (s : State) : (s.pushWord v).a = s.a := rfl
@[simp] theorem State.pushWord_x (v : Addr) (s : State) : (s.pushWord v).x = s.x := rfl
@[simp] theorem State.pushWord_y (v : Addr) (s : State) : (s.pushWord v).y = s.y := rfl
@[simp] theorem State.pushWord_sp (v : Addr) (s : State) : (s.pushWord v).sp = s.sp - 1 - 1 := rfl
@[simp] theorem State.pushWord_p (v : Addr) (s : State) : (s.pushWord v).p = s.p := rfl
@[simp] theorem State.pushWord_pc (v : Addr) (s : State) : (s.pushWord v).pc = s.pc := rfl
@[simp] theorem State.pushWord_fetched (v : Addr) (s : State) : (s.pushWord v).fetched = s.fetched := rfl
@[simp] theorem State.pushWord_temp (v : Addr) (s : State) : (s.pushWord v).temp = s.temp := rfl
@[simp] theorem State.pushWord_addrAbs (v : Addr) (s : State) : (s.pushWord v).addrAbs = s.addrAbs := rfl
@[simp] theorem State.pushWord_addrRel (v : Addr) (s : State) : (s.pushWord v).addrRel = s.addrRel := rfl
@[simp] theorem State.pushWord_opcode (v : Addr) (s : State) : (s.pushWord v).opcode = s.opcode := rfl
@[simp] theorem State.pushWord_countdown (v : Addr) (s : State) : (s.pushWord v).countdown = s.countdown := rfl
@[simp] theorem State.pushWord_clockCount (v : Addr) (s : State) : (s.pushWord v).clockCount = s.clockCount := rfl
@[simp] theorem State.pushWord_bus (v : Addr) (s : State) : (s.pushWord v).bus = (s.bus.write (stackAddr s.sp) (hi v)).write (stackAddr (s.sp - 1)) (lo v) := rfl
@[simp] theorem State.pushWord_boot (v : Addr) (s : State) : (s.pushWord v).boot = s.boot := rfl
@[simp] theorem State.pushWord_flag (v : Addr) (s : State) (g : Flag) : (s.pushWord v).flag g = s.flag g := rfl

/-! ### finish -/

@[simp] theorem State.finish_a (extra : Bool) (s : State) : (s.finish extra).a = s.a := rfl
@[simp] theorem State.finish_x (extra : Bool) (s : State) : (s.finish extra).x = s.x := rfl
@[simp] theorem State.finish_y (extra : Bool) (s : State) : (s.finish extra).y = s.y := rfl
@[simp] theorem State.finish_sp (extra : Bool) (s : State) : (s.finish extra).sp = s.sp := rfl
@[simp] theorem State.finish_p (extra : Bool) (s : State) : (s.finish extra).p = putFlag .u true s.p := rfl
@[simp] theorem State.finish_pc (extra : Bool) (s : State) : (s.finish extra).pc = s.pc := rfl
@[simp] theorem State.finish_fetched (extra : Bool) (s : State) : (s.finish extra).fetched = s.fetched := rfl
@[simp] theorem State.finish_temp (extra : Bool) (s : State) : (s.finish extra).temp = s.temp := rfl
@[simp] theorem State.finish_addrAbs (extra : Bool) (s : State) : (s.finish extra).addrAbs = s.addrAbs := rfl
@[simp] theorem State.finish_addrRel (extra : Bool) (s : State) : (s.finish extra).addrRel = s.addrRel := rfl
@[simp] theorem State.finish_opcode (extra : Bool) (s : State) : (s.finish extra).opcode = s.opcode := rfl
@[simp] theorem State.finish_countdown (extra : Bool) (s : State) : (s.finish extra).countdown = s.countdown + (if extra then 1 else 0) := rfl
@[simp] theorem State.finish_clockCount (extra : Bool) (s : State) : (s.finish extra).clockCount = s.clockCount := rfl
@[simp] theorem State.finish_bus (extra : Bool) (s : State) : (s.finish extra).bus = s.bus := rfl
@[simp] theorem State.finish_boot (extra : Bool) (s : State) : (s.finish extra).boot = s.boot := rfl
@[simp] theorem State.finish_read (extra : Bool) (s : State) (k : Addr) : (s.finish extra).read k = s.read k := rfl

/-! ### tick -/

@[simp] theorem State.tick_a (s : State) : s.tick.a = s.a := rfl
@[simp] theorem State.tick_x (s : State) : s.tick.x = s.x := rfl
@[simp] theorem State.tick_y (s : State) : s.tick.y = s.y := rfl
@[simp] theorem State.tick_sp (s : State) : s.tick.sp = s.sp := rfl
@[simp] theorem State.tick_p (s : State) : s.tick.p = s.p := rfl
@[simp] theorem State.tick_pc (s : State) : s.tick.pc = s.pc := rfl
@[simp] theorem State.tick_fetched (s : State) : s.tick.fetched = s.fetched := rfl
@[simp] theorem State.tick_temp (s : State) : s.tick.temp = s.temp := rfl
@[simp] theorem State.tick_addrAbs (s : State) : s.tick.addrAbs = s.addrAbs := rfl
@[simp] theorem State.tick_addrRel (s : State) : s.tick.addrRel = s.addrRel := rfl
@[simp] theorem State.tick_opcode (s : State) : s.tick.opcode = s.opcode := rfl
@[simp] theorem State.tick_countdown (s : State) : s.tick.countdown = s.countdown - 1 := rfl
@[simp] theorem State.tick_clockCount (s : State) : s.tick.clockCount = s.clockCount + 1 := rfl
@[simp] theorem State.tick_bus (s : State) : s.tick.bus = s.bus := rfl
@[simp] theorem State.tick_boot (s : State) : s.tick.boot = s.boot := rfl
@[simp] theorem State.tick_flag (s : State) (g : Flag) : s.tick.flag g = s.flag g := rfl
@[simp] theorem State.tick_read (s : State) (k : Addr) : s.tick.read k = s.read k := rfl

/-! ### Reading through the accessors -/

theorem State.flag_eq (s : State) (f : Flag) : s.flag f = getFlag f s.p := rfl
theorem State.read_eq (s : State) (a : Addr) : s.read a = s.bus.read a := rfl
theorem State.pulled_eq (s : State) : s.pulled = s.bus.read (stackAddr (s.sp + 1)) := rfl

/-! ### State.reset -/

@[simp] theorem State.reset_bus : State.reset.bus = .ram [] := rfl
@[simp] theorem State.reset_boot : State.reset.boot = .live := rfl

end Sys2Proof.Machine
end

