-- ==== Sys2Proof/Laws/Flags.lean ====
section
/-! SUPPORT. Reading a flag after an update of the status byte, and the byte helpers. -/

namespace Sys2Proof.Machine

/-- A flag after a flag was put. -/
@[simp] theorem getFlag_putFlag (f g : Flag) (v : Bool) (p : Byte) :
    getFlag f (putFlag g v p) = if f = g then v else getFlag f p := by
  cases v <;> cases f <;> cases g <;> simp [getFlag, putFlag, Flag.mask, Flag.index]

/-- Two status bytes with the same flags are equal. -/
theorem status_ext {p q : Byte} (h : ∀ f, getFlag f p = getFlag f q) : p = q := by
  have hc := h .c; have hz := h .z; have hi := h .i; have hd := h .d
  have hb := h .b; have hu := h .u; have hv := h .v; have hn := h .n
  apply BitVec.eq_of_getLsbD_eq
  intro k hk
  simp only [getFlag, Flag.index] at hc hz hi hd hb hu hv hn
  interval_cases k <;> assumption

@[simp] theorem State.setFlag_flag (f g : Flag) (v : Bool) (s : State) :
    (s.setFlag g v).flag f = if f = g then v else s.flag f := getFlag_putFlag f g v s.p

@[simp] theorem State.setP_flag (v : Byte) (s : State) (f : Flag) : (s.setP v).flag f = getFlag f v := rfl

/-- The flags after `NZ`. -/
@[simp] theorem State.nz_flag (v : Byte) (s : State) (f : Flag) :
    (s.nz v).flag f = if f = .n then v.msb else if f = .z then v == 0 else s.flag f := by
  simp [State.nz]

@[simp] theorem State.finish_flag (extra : Bool) (s : State) (f : Flag) :
    (s.finish extra).flag f = if f = .u then true else s.flag f := by
  simp [State.finish]

/-- The stacked copy of PHP: B and U set, the other flags as they are. -/
theorem getFlag_phpByte (f : Flag) (p : Byte) :
    getFlag f (phpByte p) = if f = .b ∨ f = .u then true else getFlag f p := by
  cases f <;> simp [getFlag, phpByte, Flag.index]

/-- What PLP loads: U set, the other flags from the byte. -/
theorem getFlag_plpStatus (f : Flag) (v : Byte) : getFlag f (plpStatus v) = if f = .u then true else getFlag f v := by
  simp [plpStatus]

/-- What RTI loads: B and U clear, the other flags from the byte. -/
theorem getFlag_rtiStatus (f : Flag) (v : Byte) :
    getFlag f (rtiStatus v) = if f = .u ∨ f = .b then false else getFlag f v := by
  cases f <;> simp [rtiStatus]

/-! ### Byte helpers -/

@[simp] theorem zext16_toNat (v : Byte) : (zext16 v).toNat = v.toNat := by
  have := v.isLt
  simp [zext16, BitVec.toNat_setWidth]
  omega

theorem lo_toNat (a : Addr) : (lo a).toNat = a.toNat % 256 := by
  simp [lo]

theorem hi_toNat (a : Addr) : (hi a).toNat = a.toNat / 256 := by
  have := a.isLt
  simp [hi, Nat.shiftRight_eq_div_pow]
  omega

theorem joinBytes_toNat (h l : Byte) : (joinBytes h l).toNat = h.toNat * 256 + l.toNat := by
  have hl := l.isLt
  rw [joinBytes, BitVec.toNat_append, ← Nat.shiftLeft_add_eq_or_of_lt hl, Nat.shiftLeft_eq]

@[simp] theorem lo_joinBytes (h l : Byte) : lo (joinBytes h l) = l := by
  have hl := l.isLt
  apply BitVec.eq_of_toNat_eq
  rw [lo_toNat, joinBytes_toNat]
  omega

@[simp] theorem hi_joinBytes (h l : Byte) : hi (joinBytes h l) = h := by
  have hl := l.isLt
  apply BitVec.eq_of_toNat_eq
  rw [hi_toNat, joinBytes_toNat]
  omega

@[simp] theorem joinBytes_hi_lo (a : Addr) : joinBytes (hi a) (lo a) = a := by
  apply BitVec.eq_of_toNat_eq
  rw [joinBytes_toNat, hi_toNat, lo_toNat]
  omega

/-- The stack address lies in page 1 (R68). -/
theorem stackAddr_toNat (sp : Byte) : (stackAddr sp).toNat = 256 + sp.toNat := by
  have := sp.isLt
  simp [stackAddr]
  omega

end Sys2Proof.Machine
end

