-- ==== Sys2Proof/Laws/Encoding.lean ====
section
/-! SUPPORT. The opcode table, the decoder and the encoder: the table (R95) against the encodings of the instruction rules, and
one lemma for each step of decoding. -/

namespace Sys2Proof

open Machine (lo_joinBytes hi_joinBytes joinBytes_hi_lo)

/-- The table has one row for each opcode (R90). -/
theorem opcodeTable_length : opcodeTable.length = 256 := by
  decide +kernel

/-- A key found in a list of pairs stands in it. -/
theorem mem_of_lookup {β : Type} {k : Byte} {v : β} {l : List (Byte × β)} (h : l.lookup k = some v) : (k, v) ∈ l := by
  induction l with
  | nil => simp at h
  | cons e rest ih =>
    obtain ⟨j, w⟩ := e
    by_cases hj : k = j
    · subst hj
      simp at h
      simp [h]
    · have hb : (k == j) = false := by simpa using hj
      rw [List.lookup_cons, hb] at h
      exact List.mem_cons_of_mem _ (ih h)

/-- What the table says of a row that no parameter governs. -/
def plainRow (b : Byte) (op : Op) (m : Mode) : Bool :=
  (tableRow b).op == op && (tableRow b).mode == m && b != 0x00 && !isUnofficialNop b

/-- The encodings of each instruction rule agree with the table (R95). -/
theorem encodings_agree (op : Op) (h : op ≠ .brk ∧ op ≠ .nop ∧ op ≠ .unused) :
    ∀ m ∈ op.modes, (match op.encodings.lookup m with | some b => plainRow b op m | none => false) = true := by
  cases op <;> first | decide | exact absurd rfl h.1 | exact absurd rfl h.2.1 | exact absurd rfl h.2.2

/-- The unofficial NOP rows of R97 agree with the table (R95). -/
theorem unofficialNops_agree : ∀ e ∈ unofficialNops,
    ((tableRow e.1).op == .nop && (tableRow e.1).mode == e.2 && e.1 != 0x00 && isUnofficialNop e.1) = true := by decide

/-- The unused rows of R98 agree with the table (R95). -/
theorem unusedRows_agree : ∀ b ∈ unusedRows, plainRow b .unused .imp = true := by decide

/-- The row of 0xEA (R97). -/
theorem nop_official : plainRow 0xEA .nop .imp = true := by decide

/-- The second SBC row (R97). -/
theorem sbc_second : plainRow 0xEB .sbc .imm = true := by decide

theorem rowMode_plain {b : Byte} {op : Op} {m : Mode} (p : Params) (h : plainRow b op m = true) :
    (tableRow b).op = op ∧ rowMode p b = m := by
  simp [plainRow] at h
  obtain ⟨⟨⟨h1, h2⟩, h3⟩, h4⟩ := h
  exact ⟨h1, by simp [rowMode, h3, h4, h2]⟩

/-! ### Operands -/

/-- The operand bytes are as many as the mode says (R92). -/
theorem Operand.bytes_length (o : Operand) : o.bytes.length = o.mode.operandBytes := by cases o <;> rfl

/-- Taking back an operand from its own bytes. -/
theorem takeOperand_bytes (o : Operand) (rest : List Byte) : takeOperand o.mode (o.bytes ++ rest) = some (o, rest) := by
  cases o <;> simp [takeOperand, Operand.mode, Operand.bytes]

/-- What is taken from a list is its head: mode, bytes and rest. -/
theorem takeOperand_cases {m : Mode} {bs rest : List Byte} {o : Operand} (h : takeOperand m bs = some (o, rest)) :
    o.mode = m ∧ bs = o.bytes ++ rest := by
  unfold takeOperand at h
  split at h <;> first | (obtain ⟨rfl, rfl⟩ := (by simpa using h : _ = o ∧ _ = rest); simp [Operand.mode, Operand.bytes]) | cases h

/-- With enough bytes, an operand is taken. -/
theorem takeOperand_some (m : Mode) {bs : List Byte} (h : m.operandBytes ≤ bs.length) :
    ∃ o rest, takeOperand m bs = some (o, rest) := by
  match m, bs with
  | .imp, rest => exact ⟨_, _, rfl⟩
  | .imm, v :: rest | .zp0, v :: rest | .zpx, v :: rest | .zpy, v :: rest | .rel, v :: rest | .izx, v :: rest
  | .izy, v :: rest => exact ⟨_, _, rfl⟩
  | .abs, l :: h :: rest | .abx, l :: h :: rest | .aby, l :: h :: rest | .ind, l :: h :: rest => exact ⟨_, _, rfl⟩
  | .imm, [] | .zp0, [] | .zpx, [] | .zpy, [] | .rel, [] | .izx, [] | .izy, [] => simp [Mode.operandBytes] at h
  | .abs, [] | .abx, [] | .aby, [] | .ind, [] => simp [Mode.operandBytes] at h
  | .abs, [_] | .abx, [_] | .aby, [_] | .ind, [_] => simp [Mode.operandBytes] at h

/-! ### Assembling -/

/-- What `assemble` builds has the row's operation and the operand. -/
theorem assemble_cases {op : Op} {b : Byte} {o : Operand} {i : Instr} (h : assemble op b o = some i) :
    i.op = op ∧ i.operand = o := by
  cases op <;> cases o <;> simp [assemble, withRel, withImp] at h <;> subst h <;> exact ⟨rfl, rfl⟩

/-! ### Decoding -/

/-- Everything a successful decode says (R90, R92, R122). -/
theorem decode_cases {p : Params} {bs rest : List Byte} {i : Instr} (h : decode p bs = .ok (i, rest)) :
    ∃ b tail, bs = b :: tail ∧ ¬((tableRow b).op = .unused ∧ p.illegal = .refuse) ∧
      takeOperand (rowMode p b) tail = some (i.operand, rest) ∧ assemble (tableRow b).op b i.operand = some i := by
  cases bs with
  | nil => simp [decode] at h
  | cons b tail =>
    rw [decode] at h
    split at h
    · cases h
    · rename_i hp
      split at h
      · cases h
      · rename_i o rest' ho
        split at h
        · cases h
        · rename_i j hj
          obtain ⟨rfl, rfl⟩ : j = i ∧ rest' = rest := by simpa using h
          obtain ⟨_, hoj⟩ := assemble_cases hj
          exact ⟨b, tail, rfl, hp, by rw [ho, hoj], by rw [hoj, hj]⟩

end Sys2Proof
end

