-- ==== Sys2Proof/Laws/Memory.lean ====
section
/-! SUPPORT. The laws of the memory list and of the bus: a read after a write, other addresses, and the canonical form. -/

namespace Sys2Proof.Machine

theorem Memory.lookup_remove_same (m : Memory) (n : Nat) : Memory.lookup (Memory.remove m n) n = emptyByte := by
  induction m with
  | nil => rfl
  | cons c rest ih =>
    obtain ⟨k, v⟩ := c
    by_cases h : k = n <;> simp [Memory.remove, Memory.lookup, h, ih]

theorem Memory.lookup_remove_other (m : Memory) {n k : Nat} (h : k ≠ n) :
    Memory.lookup (Memory.remove m n) k = Memory.lookup m k := by
  induction m with
  | nil => rfl
  | cons c rest ih =>
    obtain ⟨j, v⟩ := c
    by_cases hj : j = n
    · subst hj
      simp [Memory.remove, Memory.lookup, ih, h.symm]
    · simp [Memory.remove, Memory.lookup, hj, ih]

/-- No entry has the key that was removed. -/
theorem Memory.not_mem_remove (m : Memory) (n : Nat) : ∀ c ∈ Memory.remove m n, c.1 ≠ n := by
  induction m with
  | nil => simp [Memory.remove]
  | cons c rest ih =>
    obtain ⟨k, v⟩ := c
    by_cases h : k = n
    · simpa [Memory.remove, h] using ih
    · simpa [Memory.remove, h] using ih

theorem Memory.lookup_place_same {m : Memory} {n : Nat} (v : Byte) (hm : ∀ c ∈ m, c.1 ≠ n) :
    Memory.lookup (Memory.place m n v) n = v := by
  induction m with
  | nil => simp [Memory.place, Memory.lookup]
  | cons c rest ih =>
    obtain ⟨k, w⟩ := c
    have hk : k ≠ n := hm (k, w) (by simp)
    have hr := ih fun c hc => hm c (by simp [hc])
    by_cases hlt : n < k <;> simp [Memory.place, Memory.lookup, hlt, hk, hr]

theorem Memory.lookup_place_other (m : Memory) {n k : Nat} (v : Byte) (h : k ≠ n) :
    Memory.lookup (Memory.place m n v) k = Memory.lookup m k := by
  induction m with
  | nil => simp [Memory.place, Memory.lookup, h.symm]
  | cons c rest ih =>
    obtain ⟨j, w⟩ := c
    by_cases hlt : n < j <;> simp [Memory.place, Memory.lookup, hlt, h.symm, ih]

/-- A read of the address just written gives the value written. -/
@[simp] theorem Memory.read_write_same (m : Memory) (a : Addr) (v : Byte) : (m.write a v).read a = v := by
  unfold Memory.read Memory.write
  split
  · next h => rw [Memory.lookup_remove_same, h]
  · exact Memory.lookup_place_same v (Memory.not_mem_remove m a.toNat)

/-- A write leaves every other address alone. -/
theorem Memory.read_write_other (m : Memory) {a b : Addr} (v : Byte) (h : b ≠ a) : (m.write a v).read b = m.read b := by
  have hn : b.toNat ≠ a.toNat := fun e => h (BitVec.eq_of_toNat_eq e)
  unfold Memory.read Memory.write
  split
  · exact Memory.lookup_remove_other m hn
  · rw [Memory.lookup_place_other _ v hn, Memory.lookup_remove_other m hn]

/-- Everything a write does to a read. -/
theorem Memory.read_write (m : Memory) (a b : Addr) (v : Byte) :
    (m.write a v).read b = if b = a then v else m.read b := by
  split
  · next h => rw [h, Memory.read_write_same]
  · next h => exact Memory.read_write_other m v h

/-! ### The canonical form -/

theorem Memory.wfFrom_cons {low k : Nat} {v : Byte} {rest : Memory} :
    Memory.wfFrom low ((k, v) :: rest) = true ↔
      low ≤ k ∧ k < 65536 ∧ v ≠ emptyByte ∧ Memory.wfFrom (k + 1) rest = true := by
  simp [Memory.wfFrom, and_assoc]

theorem Memory.wfFrom_mono {low low' : Nat} {m : Memory} (h : low' ≤ low) (hm : Memory.wfFrom low m = true) :
    Memory.wfFrom low' m = true := by
  cases m with
  | nil => rfl
  | cons c rest =>
    rw [Memory.wfFrom_cons] at hm ⊢
    exact ⟨h.trans hm.1, hm.2⟩

theorem Memory.wfFrom_remove {low : Nat} {m : Memory} (n : Nat) (hm : Memory.wfFrom low m = true) :
    Memory.wfFrom low (Memory.remove m n) = true := by
  induction m generalizing low with
  | nil => rfl
  | cons c rest ih =>
    obtain ⟨k, v⟩ := c
    rw [Memory.wfFrom_cons] at hm
    obtain ⟨h1, h2, h3, h4⟩ := hm
    by_cases hk : k = n
    · simpa [Memory.remove, hk] using Memory.wfFrom_mono (by omega : low ≤ k + 1) (ih h4)
    · simpa [Memory.remove, hk, Memory.wfFrom_cons] using ⟨h1, h2, h3, ih h4⟩

theorem Memory.wfFrom_place {low n : Nat} {m : Memory} {v : Byte} (hm : Memory.wfFrom low m = true)
    (hn : ∀ c ∈ m, c.1 ≠ n) (hlow : low ≤ n) (hlt : n < 65536) (hv : v ≠ emptyByte) :
    Memory.wfFrom low (Memory.place m n v) = true := by
  induction m generalizing low with
  | nil => simp [Memory.place, hlow, hlt, hv, Memory.wfFrom]
  | cons c rest ih =>
    obtain ⟨k, w⟩ := c
    rw [Memory.wfFrom_cons] at hm
    obtain ⟨h1, h2, h3, h4⟩ := hm
    have hk : k ≠ n := hn (k, w) (by simp)
    by_cases hnk : n < k
    · simp only [Memory.place, hnk, if_true, Memory.wfFrom_cons]
      exact ⟨hlow, hlt, hv, by omega, h2, h3, h4⟩
    · simp only [Memory.place, hnk, if_false, Memory.wfFrom_cons]
      exact ⟨h1, h2, h3, ih h4 (fun c hc => hn c (by simp [hc])) (by omega)⟩

/-- A write keeps the canonical form. -/
theorem Memory.wf_write {m : Memory} (a : Addr) (v : Byte) (hm : m.wf = true) : (m.write a v).wf = true := by
  have hr := Memory.wfFrom_remove a.toNat hm
  unfold Memory.write
  split
  · exact hr
  · next hv => exact Memory.wfFrom_place hr (Memory.not_mem_remove m a.toNat) (Nat.zero_le _) a.isLt hv

/-- The empty memory has the canonical form. -/
theorem Memory.wf_nil : Memory.wf [] = true := rfl

/-! ### The bus -/

/-- A read of the address just written to the RAM gives the value written, every other address reads as before. -/
theorem Bus.read_write_ram (m : Memory) (a b : Addr) (v : Byte) :
    ((Bus.ram m).write a v).read b = if b = a then v else (Bus.ram m).read b := Memory.read_write m a b v

/-- A write keeps the canonical form. -/
theorem Bus.wf_write {b : Bus} (a : Addr) (v : Byte) (h : b.wf = true) : (b.write a v).wf = true := by
  cases b with
  | ram m => exact Memory.wf_write a v h
  | host pair calls => rfl

/-- A read keeps the canonical form. -/
theorem Bus.wf_afterRead {b : Bus} (a : Addr) (h : b.wf = true) : (b.afterRead a).wf = true := by
  cases b with
  | ram m => exact h
  | host pair calls => rfl

/-- Every write of the state's operations keeps the canonical form. -/
theorem State.wf_write {s : State} (a : Addr) (v : Byte) (h : s.bus.wf = true) : (s.write a v).bus.wf = true :=
  Bus.wf_write a v h

theorem State.wf_push {s : State} (v : Byte) (h : s.bus.wf = true) : (s.push v).bus.wf = true :=
  Bus.wf_write _ _ h

theorem State.wf_pushWord {s : State} (v : Addr) (h : s.bus.wf = true) : (s.pushWord v).bus.wf = true :=
  Bus.wf_write _ _ (Bus.wf_write _ _ h)

theorem State.wf_pull {s : State} (h : s.bus.wf = true) : s.pull.bus.wf = true :=
  Bus.wf_afterRead _ h

/-- The memory at reset has the canonical form. -/
theorem State.reset_wf : State.reset.bus.wf = true := rfl

end Sys2Proof.Machine
end

