-- ==== Sys2Proof/Laws/Ops.lean ====
section
/-! SUPPORT. For each shared operation, once, everything it does: its new fields and the fields it keeps. -/

namespace Sys2Proof.Machine

/-! ### Reads of the bus -/

/-- On the RAM a read changes nothing (20_memory.md R62). -/
theorem State.afterRead_ram {s : State} {m : Memory} (h : s.bus = .ram m) (a : Addr) : s.afterRead a = s := by
  apply State.ext <;> simp [h, Bus.afterRead]

theorem State.afterReads_ram {s : State} {m : Memory} (h : s.bus = .ram m) (l : List Addr) : s.afterReads l = s := by
  induction l with
  | nil => rfl
  | cons a rest ih => rw [State.afterReads, State.afterRead_ram h, ih]

/-- What reads do to the bus depends on the bus alone. -/
theorem State.afterReads_bus_congr {s t : State} (h : s.bus = t.bus) (l : List Addr) :
    (s.afterReads l).bus = (t.afterReads l).bus := by
  induction l generalizing s t with
  | nil => exact h
  | cons a rest ih => exact ih (by simp [h])

theorem State.afterReads_append (l k : List Addr) (s : State) : s.afterReads (l ++ k) = (s.afterReads l).afterReads k := by
  induction l generalizing s with
  | nil => rfl
  | cons a rest ih => exact ih _

@[simp] theorem State.afterReads_a (l : List Addr) (s : State) : (s.afterReads l).a = s.a := by induction l generalizing s <;> simp_all [State.afterReads]
@[simp] theorem State.afterReads_x (l : List Addr) (s : State) : (s.afterReads l).x = s.x := by induction l generalizing s <;> simp_all [State.afterReads]
@[simp] theorem State.afterReads_y (l : List Addr) (s : State) : (s.afterReads l).y = s.y := by induction l generalizing s <;> simp_all [State.afterReads]
@[simp] theorem State.afterReads_sp (l : List Addr) (s : State) : (s.afterReads l).sp = s.sp := by induction l generalizing s <;> simp_all [State.afterReads]
@[simp] theorem State.afterReads_p (l : List Addr) (s : State) : (s.afterReads l).p = s.p := by induction l generalizing s <;> simp_all [State.afterReads]
@[simp] theorem State.afterReads_pc (l : List Addr) (s : State) : (s.afterReads l).pc = s.pc := by induction l generalizing s <;> simp_all [State.afterReads]
@[simp] theorem State.afterReads_fetched (l : List Addr) (s : State) : (s.afterReads l).fetched = s.fetched := by induction l generalizing s <;> simp_all [State.afterReads]
@[simp] theorem State.afterReads_temp (l : List Addr) (s : State) : (s.afterReads l).temp = s.temp := by induction l generalizing s <;> simp_all [State.afterReads]
@[simp] theorem State.afterReads_addrAbs (l : List Addr) (s : State) : (s.afterReads l).addrAbs = s.addrAbs := by induction l generalizing s <;> simp_all [State.afterReads]
@[simp] theorem State.afterReads_addrRel (l : List Addr) (s : State) : (s.afterReads l).addrRel = s.addrRel := by induction l generalizing s <;> simp_all [State.afterReads]
@[simp] theorem State.afterReads_opcode (l : List Addr) (s : State) : (s.afterReads l).opcode = s.opcode := by induction l generalizing s <;> simp_all [State.afterReads]
@[simp] theorem State.afterReads_countdown (l : List Addr) (s : State) : (s.afterReads l).countdown = s.countdown := by induction l generalizing s <;> simp_all [State.afterReads]
@[simp] theorem State.afterReads_clockCount (l : List Addr) (s : State) : (s.afterReads l).clockCount = s.clockCount := by induction l generalizing s <;> simp_all [State.afterReads]
@[simp] theorem State.afterReads_boot (l : List Addr) (s : State) : (s.afterReads l).boot = s.boot := by induction l generalizing s <;> simp_all [State.afterReads]
@[simp] theorem State.afterReads_flag (l : List Addr) (s : State) (g : Flag) : (s.afterReads l).flag g = s.flag g := by induction l generalizing s <;> simp_all [State.afterReads]

/-- Reads keep the canonical form. -/
theorem State.wf_afterReads {s : State} (l : List Addr) (h : s.bus.wf = true) : (s.afterReads l).bus.wf = true := by
  induction l generalizing s with
  | nil => exact h
  | cons a rest ih => exact ih (Bus.wf_afterRead a h)

/-! ### The addressing-mode evaluator -/

@[simp] theorem State.afterMode_a (o : Operand) (s : State) : (s.afterMode o).a = s.a := by simp [State.afterMode]
@[simp] theorem State.afterMode_x (o : Operand) (s : State) : (s.afterMode o).x = s.x := by simp [State.afterMode]
@[simp] theorem State.afterMode_y (o : Operand) (s : State) : (s.afterMode o).y = s.y := by simp [State.afterMode]
@[simp] theorem State.afterMode_sp (o : Operand) (s : State) : (s.afterMode o).sp = s.sp := by simp [State.afterMode]
@[simp] theorem State.afterMode_p (o : Operand) (s : State) : (s.afterMode o).p = s.p := by simp [State.afterMode]
@[simp] theorem State.afterMode_pc (o : Operand) (s : State) : (s.afterMode o).pc = s.pc := by simp [State.afterMode]
@[simp] theorem State.afterMode_fetched (o : Operand) (s : State) : (s.afterMode o).fetched = s.fetched := by simp [State.afterMode]
@[simp] theorem State.afterMode_temp (o : Operand) (s : State) : (s.afterMode o).temp = s.temp := by simp [State.afterMode]
@[simp] theorem State.afterMode_addrAbs (o : Operand) (s : State) : (s.afterMode o).addrAbs = s.addrAbs := by simp [State.afterMode]
@[simp] theorem State.afterMode_addrRel (o : Operand) (s : State) : (s.afterMode o).addrRel = s.addrRel := by simp [State.afterMode]
@[simp] theorem State.afterMode_opcode (o : Operand) (s : State) : (s.afterMode o).opcode = s.opcode := by simp [State.afterMode]
@[simp] theorem State.afterMode_countdown (o : Operand) (s : State) : (s.afterMode o).countdown = s.countdown := by simp [State.afterMode]
@[simp] theorem State.afterMode_clockCount (o : Operand) (s : State) : (s.afterMode o).clockCount = s.clockCount := by simp [State.afterMode]
@[simp] theorem State.afterMode_boot (o : Operand) (s : State) : (s.afterMode o).boot = s.boot := by simp [State.afterMode]
@[simp] theorem State.afterMode_flag (o : Operand) (s : State) (g : Flag) : (s.afterMode o).flag g = s.flag g := by simp [State.afterMode]

@[simp] theorem State.afterMode_imp (s : State) : s.afterMode .imp = s := rfl
@[simp] theorem State.afterMode_imm (v : Byte) (s : State) : s.afterMode (.imm v) = s := rfl

@[simp] theorem State.address_a (o : Operand) (s : State) : (s.address o).a = s.a := by cases o <;> simp [State.address]
@[simp] theorem State.address_x (o : Operand) (s : State) : (s.address o).x = s.x := by cases o <;> simp [State.address]
@[simp] theorem State.address_y (o : Operand) (s : State) : (s.address o).y = s.y := by cases o <;> simp [State.address]
@[simp] theorem State.address_sp (o : Operand) (s : State) : (s.address o).sp = s.sp := by cases o <;> simp [State.address]
@[simp] theorem State.address_p (o : Operand) (s : State) : (s.address o).p = s.p := by cases o <;> simp [State.address]
@[simp] theorem State.address_temp (o : Operand) (s : State) : (s.address o).temp = s.temp := by cases o <;> simp [State.address]
@[simp] theorem State.address_opcode (o : Operand) (s : State) : (s.address o).opcode = s.opcode := by cases o <;> simp [State.address]
@[simp] theorem State.address_countdown (o : Operand) (s : State) : (s.address o).countdown = s.countdown := by cases o <;> simp [State.address]
@[simp] theorem State.address_clockCount (o : Operand) (s : State) : (s.address o).clockCount = s.clockCount := by cases o <;> simp [State.address]
@[simp] theorem State.address_boot (o : Operand) (s : State) : (s.address o).boot = s.boot := by cases o <;> simp [State.address]
@[simp] theorem State.address_flag (o : Operand) (s : State) (g : Flag) : (s.address o).flag g = s.flag g := by cases o <;> simp [State.address]

@[simp] theorem State.address_bus (o : Operand) (s : State) : (s.address o).bus = (s.afterMode o).bus := by cases o <;> rfl

theorem State.wf_address {s : State} (o : Operand) (h : s.bus.wf = true) : (s.address o).bus.wf = true := by
  rw [State.address_bus]
  exact State.wf_afterReads _ h

@[simp] theorem State.address_pc (o : Operand) (s : State) : (s.address o).pc = s.nextPc o := by
  cases o <;> simp [State.address, State.nextPc, Operand.mode, Mode.operandBytes]

@[simp] theorem State.address_addrAbs (o : Operand) (s : State) : (s.address o).addrAbs = s.target o := by
  cases o <;> simp [State.address, State.target]

theorem State.address_addrRel (o : Operand) (s : State) :
    (s.address o).addrRel = match o with | .rel d => sext16 d | _ => s.addrRel := by
  cases o <;> simp [State.address]

theorem State.address_fetched (o : Operand) (s : State) :
    (s.address o).fetched = match o with | .imp => s.a | _ => s.fetched := by
  cases o <;> simp [State.address]

/-! ### The operand read -/

@[simp] theorem State.fetch_a (o : Operand) (s : State) : (s.fetch o).a = s.a := by cases o <;> rfl
@[simp] theorem State.fetch_x (o : Operand) (s : State) : (s.fetch o).x = s.x := by cases o <;> rfl
@[simp] theorem State.fetch_y (o : Operand) (s : State) : (s.fetch o).y = s.y := by cases o <;> rfl
@[simp] theorem State.fetch_sp (o : Operand) (s : State) : (s.fetch o).sp = s.sp := by cases o <;> rfl
@[simp] theorem State.fetch_p (o : Operand) (s : State) : (s.fetch o).p = s.p := by cases o <;> rfl
@[simp] theorem State.fetch_pc (o : Operand) (s : State) : (s.fetch o).pc = s.pc := by cases o <;> rfl
@[simp] theorem State.fetch_temp (o : Operand) (s : State) : (s.fetch o).temp = s.temp := by cases o <;> rfl
@[simp] theorem State.fetch_addrAbs (o : Operand) (s : State) : (s.fetch o).addrAbs = s.addrAbs := by cases o <;> rfl
@[simp] theorem State.fetch_addrRel (o : Operand) (s : State) : (s.fetch o).addrRel = s.addrRel := by cases o <;> rfl
@[simp] theorem State.fetch_opcode (o : Operand) (s : State) : (s.fetch o).opcode = s.opcode := by cases o <;> rfl
@[simp] theorem State.fetch_countdown (o : Operand) (s : State) : (s.fetch o).countdown = s.countdown := by cases o <;> rfl
@[simp] theorem State.fetch_clockCount (o : Operand) (s : State) : (s.fetch o).clockCount = s.clockCount := by cases o <;> rfl
@[simp] theorem State.fetch_boot (o : Operand) (s : State) : (s.fetch o).boot = s.boot := by cases o <;> rfl
@[simp] theorem State.fetch_flag (o : Operand) (s : State) (g : Flag) : (s.fetch o).flag g = s.flag g := by cases o <;> rfl

/-- After the mode and `fetch()`, the latch holds the operand's byte. -/
@[simp] theorem State.fetch_address_fetched (o : Operand) (s : State) :
    ((s.address o).fetch o).fetched = s.operandValue o := by
  cases o <;> rfl

/-- Everything `fetch()` does to the bus: one read at `addr_abs`, but in IMP mode none. -/
theorem State.fetch_bus (o : Operand) (s : State) :
    (s.fetch o).bus = if o = .imp then s.bus else s.bus.afterRead s.addrAbs := by
  cases o <;> simp [State.fetch]

theorem State.wf_fetch {s : State} (o : Operand) (h : s.bus.wf = true) : (s.fetch o).bus.wf = true := by
  rw [State.fetch_bus]
  split
  · exact h
  · exact Bus.wf_afterRead _ h

/-! ### The write-back -/

@[simp] theorem State.writeBack_x (o : Operand) (r : Byte) (s : State) : (s.writeBack o r).x = s.x := by cases o <;> rfl
@[simp] theorem State.writeBack_y (o : Operand) (r : Byte) (s : State) : (s.writeBack o r).y = s.y := by cases o <;> rfl
@[simp] theorem State.writeBack_sp (o : Operand) (r : Byte) (s : State) : (s.writeBack o r).sp = s.sp := by cases o <;> rfl
@[simp] theorem State.writeBack_p (o : Operand) (r : Byte) (s : State) : (s.writeBack o r).p = s.p := by cases o <;> rfl
@[simp] theorem State.writeBack_pc (o : Operand) (r : Byte) (s : State) : (s.writeBack o r).pc = s.pc := by cases o <;> rfl
@[simp] theorem State.writeBack_fetched (o : Operand) (r : Byte) (s : State) : (s.writeBack o r).fetched = s.fetched := by cases o <;> rfl
@[simp] theorem State.writeBack_temp (o : Operand) (r : Byte) (s : State) : (s.writeBack o r).temp = s.temp := by cases o <;> rfl
@[simp] theorem State.writeBack_addrAbs (o : Operand) (r : Byte) (s : State) : (s.writeBack o r).addrAbs = s.addrAbs := by cases o <;> rfl
@[simp] theorem State.writeBack_addrRel (o : Operand) (r : Byte) (s : State) : (s.writeBack o r).addrRel = s.addrRel := by cases o <;> rfl
@[simp] theorem State.writeBack_opcode (o : Operand) (r : Byte) (s : State) : (s.writeBack o r).opcode = s.opcode := by cases o <;> rfl
@[simp] theorem State.writeBack_countdown (o : Operand) (r : Byte) (s : State) : (s.writeBack o r).countdown = s.countdown := by cases o <;> rfl
@[simp] theorem State.writeBack_clockCount (o : Operand) (r : Byte) (s : State) : (s.writeBack o r).clockCount = s.clockCount := by cases o <;> rfl
@[simp] theorem State.writeBack_boot (o : Operand) (r : Byte) (s : State) : (s.writeBack o r).boot = s.boot := by cases o <;> rfl
@[simp] theorem State.writeBack_flag (o : Operand) (r : Byte) (s : State) (g : Flag) : (s.writeBack o r).flag g = s.flag g := by cases o <;> rfl

theorem State.writeBack_imp (r : Byte) (s : State) : s.writeBack .imp r = s.setA r := rfl

theorem State.writeBack_memory {o : Operand} (r : Byte) (s : State) (h : o ≠ .imp) :
    s.writeBack o r = s.write s.addrAbs r := by
  cases o <;> first | rfl | exact absurd rfl h

/-! ### The frame around an operation -/

/-- Every instruction ends through `finish`: what the operation leaves, with the extra cycle and U. -/
theorem State.runOperation_eq (o : Operand) (hint : Bool) (f : State → State) (s : State) :
    s.runOperation o hint f = (f (s.address o)).finish (s.crosses o && hint) := rfl

/-! ### Arithmetic, compare, bit test -/

@[simp] theorem State.addCore_x (v : Byte) (c : Addr → Bool) (s : State) : (s.addCore v c).x = s.x := by simp [State.addCore]
@[simp] theorem State.addCore_y (v : Byte) (c : Addr → Bool) (s : State) : (s.addCore v c).y = s.y := by simp [State.addCore]
@[simp] theorem State.addCore_sp (v : Byte) (c : Addr → Bool) (s : State) : (s.addCore v c).sp = s.sp := by simp [State.addCore]
@[simp] theorem State.addCore_pc (v : Byte) (c : Addr → Bool) (s : State) : (s.addCore v c).pc = s.pc := by simp [State.addCore]
@[simp] theorem State.addCore_fetched (v : Byte) (c : Addr → Bool) (s : State) : (s.addCore v c).fetched = s.fetched := by simp [State.addCore]
@[simp] theorem State.addCore_addrAbs (v : Byte) (c : Addr → Bool) (s : State) : (s.addCore v c).addrAbs = s.addrAbs := by simp [State.addCore]
@[simp] theorem State.addCore_addrRel (v : Byte) (c : Addr → Bool) (s : State) : (s.addCore v c).addrRel = s.addrRel := by simp [State.addCore]
@[simp] theorem State.addCore_opcode (v : Byte) (c : Addr → Bool) (s : State) : (s.addCore v c).opcode = s.opcode := by simp [State.addCore]
@[simp] theorem State.addCore_countdown (v : Byte) (c : Addr → Bool) (s : State) : (s.addCore v c).countdown = s.countdown := by simp [State.addCore]
@[simp] theorem State.addCore_clockCount (v : Byte) (c : Addr → Bool) (s : State) : (s.addCore v c).clockCount = s.clockCount := by simp [State.addCore]
@[simp] theorem State.addCore_bus (v : Byte) (c : Addr → Bool) (s : State) : (s.addCore v c).bus = s.bus := by simp [State.addCore]
@[simp] theorem State.addCore_boot (v : Byte) (c : Addr → Bool) (s : State) : (s.addCore v c).boot = s.boot := by simp [State.addCore]
@[simp] theorem State.addCore_read (v : Byte) (c : Addr → Bool) (s : State) (k : Addr) : (s.addCore v c).read k = s.read k := by simp [State.addCore]

@[simp] theorem State.setAccumulator_x (r : Byte) (s : State) : (s.setAccumulator r).x = s.x := by simp [State.setAccumulator]
@[simp] theorem State.setAccumulator_y (r : Byte) (s : State) : (s.setAccumulator r).y = s.y := by simp [State.setAccumulator]
@[simp] theorem State.setAccumulator_sp (r : Byte) (s : State) : (s.setAccumulator r).sp = s.sp := by simp [State.setAccumulator]
@[simp] theorem State.setAccumulator_pc (r : Byte) (s : State) : (s.setAccumulator r).pc = s.pc := by simp [State.setAccumulator]
@[simp] theorem State.setAccumulator_fetched (r : Byte) (s : State) : (s.setAccumulator r).fetched = s.fetched := by simp [State.setAccumulator]
@[simp] theorem State.setAccumulator_temp (r : Byte) (s : State) : (s.setAccumulator r).temp = s.temp := by simp [State.setAccumulator]
@[simp] theorem State.setAccumulator_addrAbs (r : Byte) (s : State) : (s.setAccumulator r).addrAbs = s.addrAbs := by simp [State.setAccumulator]
@[simp] theorem State.setAccumulator_addrRel (r : Byte) (s : State) : (s.setAccumulator r).addrRel = s.addrRel := by simp [State.setAccumulator]
@[simp] theorem State.setAccumulator_opcode (r : Byte) (s : State) : (s.setAccumulator r).opcode = s.opcode := by simp [State.setAccumulator]
@[simp] theorem State.setAccumulator_countdown (r : Byte) (s : State) : (s.setAccumulator r).countdown = s.countdown := by simp [State.setAccumulator]
@[simp] theorem State.setAccumulator_clockCount (r : Byte) (s : State) : (s.setAccumulator r).clockCount = s.clockCount := by simp [State.setAccumulator]
@[simp] theorem State.setAccumulator_bus (r : Byte) (s : State) : (s.setAccumulator r).bus = s.bus := by simp [State.setAccumulator]
@[simp] theorem State.setAccumulator_boot (r : Byte) (s : State) : (s.setAccumulator r).boot = s.boot := by simp [State.setAccumulator]
@[simp] theorem State.setAccumulator_read (r : Byte) (s : State) (k : Addr) : (s.setAccumulator r).read k = s.read k := by simp [State.setAccumulator]

@[simp] theorem State.compare_a (r : Byte) (s : State) : (s.compare r).a = s.a := by simp [State.compare]
@[simp] theorem State.compare_x (r : Byte) (s : State) : (s.compare r).x = s.x := by simp [State.compare]
@[simp] theorem State.compare_y (r : Byte) (s : State) : (s.compare r).y = s.y := by simp [State.compare]
@[simp] theorem State.compare_sp (r : Byte) (s : State) : (s.compare r).sp = s.sp := by simp [State.compare]
@[simp] theorem State.compare_pc (r : Byte) (s : State) : (s.compare r).pc = s.pc := by simp [State.compare]
@[simp] theorem State.compare_fetched (r : Byte) (s : State) : (s.compare r).fetched = s.fetched := by simp [State.compare]
@[simp] theorem State.compare_addrAbs (r : Byte) (s : State) : (s.compare r).addrAbs = s.addrAbs := by simp [State.compare]
@[simp] theorem State.compare_addrRel (r : Byte) (s : State) : (s.compare r).addrRel = s.addrRel := by simp [State.compare]
@[simp] theorem State.compare_opcode (r : Byte) (s : State) : (s.compare r).opcode = s.opcode := by simp [State.compare]
@[simp] theorem State.compare_countdown (r : Byte) (s : State) : (s.compare r).countdown = s.countdown := by simp [State.compare]
@[simp] theorem State.compare_clockCount (r : Byte) (s : State) : (s.compare r).clockCount = s.clockCount := by simp [State.compare]
@[simp] theorem State.compare_bus (r : Byte) (s : State) : (s.compare r).bus = s.bus := by simp [State.compare]
@[simp] theorem State.compare_boot (r : Byte) (s : State) : (s.compare r).boot = s.boot := by simp [State.compare]
@[simp] theorem State.compare_read (r : Byte) (s : State) (k : Addr) : (s.compare r).read k = s.read k := by simp [State.compare]

@[simp] theorem State.bitTest_a (s : State) : s.bitTest.a = s.a := by simp [State.bitTest]
@[simp] theorem State.bitTest_x (s : State) : s.bitTest.x = s.x := by simp [State.bitTest]
@[simp] theorem State.bitTest_y (s : State) : s.bitTest.y = s.y := by simp [State.bitTest]
@[simp] theorem State.bitTest_sp (s : State) : s.bitTest.sp = s.sp := by simp [State.bitTest]
@[simp] theorem State.bitTest_pc (s : State) : s.bitTest.pc = s.pc := by simp [State.bitTest]
@[simp] theorem State.bitTest_fetched (s : State) : s.bitTest.fetched = s.fetched := by simp [State.bitTest]
@[simp] theorem State.bitTest_addrAbs (s : State) : s.bitTest.addrAbs = s.addrAbs := by simp [State.bitTest]
@[simp] theorem State.bitTest_addrRel (s : State) : s.bitTest.addrRel = s.addrRel := by simp [State.bitTest]
@[simp] theorem State.bitTest_opcode (s : State) : s.bitTest.opcode = s.opcode := by simp [State.bitTest]
@[simp] theorem State.bitTest_countdown (s : State) : s.bitTest.countdown = s.countdown := by simp [State.bitTest]
@[simp] theorem State.bitTest_clockCount (s : State) : s.bitTest.clockCount = s.clockCount := by simp [State.bitTest]
@[simp] theorem State.bitTest_bus (s : State) : s.bitTest.bus = s.bus := by simp [State.bitTest]
@[simp] theorem State.bitTest_boot (s : State) : s.bitTest.boot = s.boot := by simp [State.bitTest]
@[simp] theorem State.bitTest_read (s : State) (k : Addr) : s.bitTest.read k = s.read k := by simp [State.bitTest]

@[simp] theorem State.countMemory_a (t : Addr) (s : State) : (s.countMemory t).a = s.a := by simp [State.countMemory]
@[simp] theorem State.countMemory_x (t : Addr) (s : State) : (s.countMemory t).x = s.x := by simp [State.countMemory]
@[simp] theorem State.countMemory_y (t : Addr) (s : State) : (s.countMemory t).y = s.y := by simp [State.countMemory]
@[simp] theorem State.countMemory_sp (t : Addr) (s : State) : (s.countMemory t).sp = s.sp := by simp [State.countMemory]
@[simp] theorem State.countMemory_pc (t : Addr) (s : State) : (s.countMemory t).pc = s.pc := by simp [State.countMemory]
@[simp] theorem State.countMemory_fetched (t : Addr) (s : State) : (s.countMemory t).fetched = s.fetched := by simp [State.countMemory]
@[simp] theorem State.countMemory_addrAbs (t : Addr) (s : State) : (s.countMemory t).addrAbs = s.addrAbs := by simp [State.countMemory]
@[simp] theorem State.countMemory_addrRel (t : Addr) (s : State) : (s.countMemory t).addrRel = s.addrRel := by simp [State.countMemory]
@[simp] theorem State.countMemory_opcode (t : Addr) (s : State) : (s.countMemory t).opcode = s.opcode := by simp [State.countMemory]
@[simp] theorem State.countMemory_countdown (t : Addr) (s : State) : (s.countMemory t).countdown = s.countdown := by simp [State.countMemory]
@[simp] theorem State.countMemory_clockCount (t : Addr) (s : State) : (s.countMemory t).clockCount = s.clockCount := by simp [State.countMemory]
@[simp] theorem State.countMemory_boot (t : Addr) (s : State) : (s.countMemory t).boot = s.boot := by simp [State.countMemory]

theorem State.addCore_a (v : Byte) (c : Addr → Bool) (s : State) :
    (s.addCore v c).a = lo (sumTemp s.a v (s.flag .c)) := by
  simp [State.addCore]

theorem State.addCore_temp (v : Byte) (c : Addr → Bool) (s : State) :
    (s.addCore v c).temp = sumTemp s.a v (s.flag .c) := by
  simp [State.addCore]

theorem State.addCore_flag (v : Byte) (c : Addr → Bool) (s : State) (f : Flag) :
    (s.addCore v c).flag f =
      let t := sumTemp s.a v (s.flag .c)
      match f with
      | .c => c t
      | .v => sumOverflow s.a v t
      | .z => lo t == 0
      | .n => (lo t).msb
      | .i | .d | .b | .u => s.flag f := by
  cases f <;> simp [State.addCore]

theorem State.setAccumulator_a (r : Byte) (s : State) : (s.setAccumulator r).a = r := rfl

theorem State.setAccumulator_flag (r : Byte) (s : State) (f : Flag) :
    (s.setAccumulator r).flag f = if f = .n then r.msb else if f = .z then r == 0 else s.flag f := by
  simp [State.setAccumulator]

theorem State.compare_temp (r : Byte) (s : State) : (s.compare r).temp = compareTemp r s.fetched := rfl

theorem State.compare_flag (r : Byte) (s : State) (f : Flag) :
    (s.compare r).flag f =
      match f with
      | .c => compareCarry r s.fetched
      | .z => lo (compareTemp r s.fetched) == 0
      | .n => (lo (compareTemp r s.fetched)).msb
      | .i | .d | .b | .u | .v => s.flag f := by
  cases f <;> simp [State.compare]

theorem State.bitTest_flag (s : State) (f : Flag) :
    s.bitTest.flag f =
      match f with
      | .z => lo (zext16 (s.a &&& s.fetched)) == 0
      | .n => s.fetched.getLsbD 7
      | .v => s.fetched.getLsbD 6
      | .c | .i | .d | .b | .u => s.flag f := by
  cases f <;> simp [State.bitTest]

theorem State.countMemory_bus (t : Addr) (s : State) : (s.countMemory t).bus = s.bus.write s.addrAbs (lo t) := rfl

theorem State.countMemory_flag (t : Addr) (s : State) (f : Flag) :
    (s.countMemory t).flag f = if f = .n then (lo t).msb else if f = .z then lo t == 0 else s.flag f := by
  simp [State.countMemory]

/-! ### Shifts -/

@[simp] theorem State.shiftCore_x (o : Operand) (c : Bool) (t : Addr) (s : State) : (s.shiftCore o c t).x = s.x := by simp [State.shiftCore]
@[simp] theorem State.shiftCore_y (o : Operand) (c : Bool) (t : Addr) (s : State) : (s.shiftCore o c t).y = s.y := by simp [State.shiftCore]
@[simp] theorem State.shiftCore_sp (o : Operand) (c : Bool) (t : Addr) (s : State) : (s.shiftCore o c t).sp = s.sp := by simp [State.shiftCore]
@[simp] theorem State.shiftCore_pc (o : Operand) (c : Bool) (t : Addr) (s : State) : (s.shiftCore o c t).pc = s.pc := by simp [State.shiftCore]
@[simp] theorem State.shiftCore_fetched (o : Operand) (c : Bool) (t : Addr) (s : State) : (s.shiftCore o c t).fetched = s.fetched := by simp [State.shiftCore]
@[simp] theorem State.shiftCore_addrAbs (o : Operand) (c : Bool) (t : Addr) (s : State) : (s.shiftCore o c t).addrAbs = s.addrAbs := by simp [State.shiftCore]
@[simp] theorem State.shiftCore_addrRel (o : Operand) (c : Bool) (t : Addr) (s : State) : (s.shiftCore o c t).addrRel = s.addrRel := by simp [State.shiftCore]
@[simp] theorem State.shiftCore_opcode (o : Operand) (c : Bool) (t : Addr) (s : State) : (s.shiftCore o c t).opcode = s.opcode := by simp [State.shiftCore]
@[simp] theorem State.shiftCore_countdown (o : Operand) (c : Bool) (t : Addr) (s : State) : (s.shiftCore o c t).countdown = s.countdown := by simp [State.shiftCore]
@[simp] theorem State.shiftCore_clockCount (o : Operand) (c : Bool) (t : Addr) (s : State) : (s.shiftCore o c t).clockCount = s.clockCount := by simp [State.shiftCore]
@[simp] theorem State.shiftCore_boot (o : Operand) (c : Bool) (t : Addr) (s : State) : (s.shiftCore o c t).boot = s.boot := by simp [State.shiftCore]

theorem State.shiftCore_flag (o : Operand) (c : Bool) (t : Addr) (s : State) (f : Flag) :
    (s.shiftCore o c t).flag f =
      match f with
      | .c => c
      | .z => lo t == 0
      | .n => (lo t).msb
      | .i | .d | .b | .u | .v => s.flag f := by
  cases f <;> simp [State.shiftCore]

theorem State.shiftCore_imp_a (c : Bool) (t : Addr) (s : State) : (s.shiftCore .imp c t).a = lo t := rfl

theorem State.shiftCore_imp_bus (c : Bool) (t : Addr) (s : State) : (s.shiftCore .imp c t).bus = s.bus := rfl

theorem State.shiftCore_memory {o : Operand} (c : Bool) (t : Addr) (s : State) (h : o ≠ .imp) :
    (s.shiftCore o c t).a = s.a ∧ (s.shiftCore o c t).bus = s.bus.write s.addrAbs (lo t) := by
  simp [State.shiftCore, State.writeBack_memory _ _ h]

/-! ### Branches -/

@[simp] theorem State.branch_a (c : Bool) (s : State) : (s.branch c).a = s.a := by cases c <;> rfl
@[simp] theorem State.branch_x (c : Bool) (s : State) : (s.branch c).x = s.x := by cases c <;> rfl
@[simp] theorem State.branch_y (c : Bool) (s : State) : (s.branch c).y = s.y := by cases c <;> rfl
@[simp] theorem State.branch_sp (c : Bool) (s : State) : (s.branch c).sp = s.sp := by cases c <;> rfl
@[simp] theorem State.branch_p (c : Bool) (s : State) : (s.branch c).p = s.p := by cases c <;> rfl
@[simp] theorem State.branch_fetched (c : Bool) (s : State) : (s.branch c).fetched = s.fetched := by cases c <;> rfl
@[simp] theorem State.branch_temp (c : Bool) (s : State) : (s.branch c).temp = s.temp := by cases c <;> rfl
@[simp] theorem State.branch_addrRel (c : Bool) (s : State) : (s.branch c).addrRel = s.addrRel := by cases c <;> rfl
@[simp] theorem State.branch_opcode (c : Bool) (s : State) : (s.branch c).opcode = s.opcode := by cases c <;> rfl
@[simp] theorem State.branch_clockCount (c : Bool) (s : State) : (s.branch c).clockCount = s.clockCount := by cases c <;> rfl
@[simp] theorem State.branch_bus (c : Bool) (s : State) : (s.branch c).bus = s.bus := by cases c <;> rfl
@[simp] theorem State.branch_boot (c : Bool) (s : State) : (s.branch c).boot = s.boot := by cases c <;> rfl
@[simp] theorem State.branch_flag (c : Bool) (s : State) (g : Flag) : (s.branch c).flag g = s.flag g := by cases c <;> rfl
@[simp] theorem State.branch_read (c : Bool) (s : State) (k : Addr) : (s.branch c).read k = s.read k := by cases c <;> rfl

theorem State.branch_false (s : State) : s.branch false = s := rfl

theorem State.branch_true (s : State) :
    s.branch true = { s with
      addrAbs := s.pc + s.addrRel, pc := s.pc + s.addrRel,
      countdown := s.countdown + (if hi (s.pc + s.addrRel) != hi s.pc then 2 else 1) } := rfl

/-! ### Interrupts -/

@[simp] theorem State.takeInterrupt_a (v : Addr) (b : Bool) (s : State) : (s.takeInterrupt v b).a = s.a := by simp [State.takeInterrupt]
@[simp] theorem State.takeInterrupt_x (v : Addr) (b : Bool) (s : State) : (s.takeInterrupt v b).x = s.x := by simp [State.takeInterrupt]
@[simp] theorem State.takeInterrupt_y (v : Addr) (b : Bool) (s : State) : (s.takeInterrupt v b).y = s.y := by simp [State.takeInterrupt]
@[simp] theorem State.takeInterrupt_fetched (v : Addr) (b : Bool) (s : State) : (s.takeInterrupt v b).fetched = s.fetched := by simp [State.takeInterrupt]
@[simp] theorem State.takeInterrupt_temp (v : Addr) (b : Bool) (s : State) : (s.takeInterrupt v b).temp = s.temp := by simp [State.takeInterrupt]
@[simp] theorem State.takeInterrupt_addrAbs (v : Addr) (b : Bool) (s : State) : (s.takeInterrupt v b).addrAbs = s.addrAbs := by simp [State.takeInterrupt]
@[simp] theorem State.takeInterrupt_addrRel (v : Addr) (b : Bool) (s : State) : (s.takeInterrupt v b).addrRel = s.addrRel := by simp [State.takeInterrupt]
@[simp] theorem State.takeInterrupt_opcode (v : Addr) (b : Bool) (s : State) : (s.takeInterrupt v b).opcode = s.opcode := by simp [State.takeInterrupt]
@[simp] theorem State.takeInterrupt_countdown (v : Addr) (b : Bool) (s : State) : (s.takeInterrupt v b).countdown = s.countdown := by simp [State.takeInterrupt]
@[simp] theorem State.takeInterrupt_clockCount (v : Addr) (b : Bool) (s : State) : (s.takeInterrupt v b).clockCount = s.clockCount := by simp [State.takeInterrupt]
@[simp] theorem State.takeInterrupt_boot (v : Addr) (b : Bool) (s : State) : (s.takeInterrupt v b).boot = s.boot := by simp [State.takeInterrupt]

@[simp] theorem State.entry_a (v : Addr) (n : Nat) (s : State) : (s.entry v n).a = s.a := by simp [State.entry]
@[simp] theorem State.entry_x (v : Addr) (n : Nat) (s : State) : (s.entry v n).x = s.x := by simp [State.entry]
@[simp] theorem State.entry_y (v : Addr) (n : Nat) (s : State) : (s.entry v n).y = s.y := by simp [State.entry]
@[simp] theorem State.entry_fetched (v : Addr) (n : Nat) (s : State) : (s.entry v n).fetched = s.fetched := by simp [State.entry]
@[simp] theorem State.entry_temp (v : Addr) (n : Nat) (s : State) : (s.entry v n).temp = s.temp := by simp [State.entry]
@[simp] theorem State.entry_addrAbs (v : Addr) (n : Nat) (s : State) : (s.entry v n).addrAbs = s.addrAbs := by simp [State.entry]
@[simp] theorem State.entry_addrRel (v : Addr) (n : Nat) (s : State) : (s.entry v n).addrRel = s.addrRel := by simp [State.entry]
@[simp] theorem State.entry_opcode (v : Addr) (n : Nat) (s : State) : (s.entry v n).opcode = s.opcode := by simp [State.entry]
@[simp] theorem State.entry_clockCount (v : Addr) (n : Nat) (s : State) : (s.entry v n).clockCount = s.clockCount := by simp [State.entry]
@[simp] theorem State.entry_boot (v : Addr) (n : Nat) (s : State) : (s.entry v n).boot = s.boot := by simp [State.entry]

@[simp] theorem State.returnFromInterrupt_a (s : State) : s.returnFromInterrupt.a = s.a := by simp [State.returnFromInterrupt]
@[simp] theorem State.returnFromInterrupt_x (s : State) : s.returnFromInterrupt.x = s.x := by simp [State.returnFromInterrupt]
@[simp] theorem State.returnFromInterrupt_y (s : State) : s.returnFromInterrupt.y = s.y := by simp [State.returnFromInterrupt]
@[simp] theorem State.returnFromInterrupt_fetched (s : State) : s.returnFromInterrupt.fetched = s.fetched := by simp [State.returnFromInterrupt]
@[simp] theorem State.returnFromInterrupt_temp (s : State) : s.returnFromInterrupt.temp = s.temp := by simp [State.returnFromInterrupt]
@[simp] theorem State.returnFromInterrupt_addrAbs (s : State) : s.returnFromInterrupt.addrAbs = s.addrAbs := by simp [State.returnFromInterrupt]
@[simp] theorem State.returnFromInterrupt_addrRel (s : State) : s.returnFromInterrupt.addrRel = s.addrRel := by simp [State.returnFromInterrupt]
@[simp] theorem State.returnFromInterrupt_opcode (s : State) : s.returnFromInterrupt.opcode = s.opcode := by simp [State.returnFromInterrupt]
@[simp] theorem State.returnFromInterrupt_countdown (s : State) : s.returnFromInterrupt.countdown = s.countdown := by simp [State.returnFromInterrupt]
@[simp] theorem State.returnFromInterrupt_clockCount (s : State) : s.returnFromInterrupt.clockCount = s.clockCount := by simp [State.returnFromInterrupt]
@[simp] theorem State.returnFromInterrupt_boot (s : State) : s.returnFromInterrupt.boot = s.boot := by simp [State.returnFromInterrupt]

/-- Everything `takeInterrupt` does: three bytes stacked, I set, B cleared, PC from the vector. -/
theorem State.takeInterrupt_eq (v : Addr) (b : Bool) (s : State) :
    s.takeInterrupt v b =
      let stacked := putFlag .b b (putFlag .i true s.p)
      let m := ((s.bus.write (stackAddr s.sp) (hi s.pc)).write (stackAddr (s.sp - 1)) (lo s.pc)).write
        (stackAddr (s.sp - 1 - 1)) stacked
      { s with sp := s.sp - 1 - 1 - 1, p := putFlag .b false stacked, bus := (m.afterRead v).afterRead (v + 1),
               pc := joinBytes ((m.afterRead v).read (v + 1)) (m.read v) } := by
  apply State.ext <;> simp [State.takeInterrupt, State.readWord, State.readPair, State.read_eq, State.afterReads]

theorem State.takeInterrupt_flag (v : Addr) (b : Bool) (s : State) (f : Flag) :
    (s.takeInterrupt v b).flag f = if f = .b then false else if f = .i then true else s.flag f := by
  rw [State.takeInterrupt_eq]
  cases f <;> simp [State.flag]

/-- Every interrupt keeps the canonical form of memory. -/
theorem State.wf_takeInterrupt {s : State} (v : Addr) (b : Bool) (h : s.bus.wf = true) :
    (s.takeInterrupt v b).bus.wf = true := by
  rw [State.takeInterrupt_eq]
  exact Bus.wf_afterRead _ (Bus.wf_afterRead _ (Bus.wf_write _ _ (Bus.wf_write _ _ (Bus.wf_write _ _ h))))

theorem State.entry_eq (v : Addr) (n : Nat) (s : State) :
    s.entry v n = { (s.setFlag .u true).takeInterrupt v false with countdown := n } := rfl

theorem State.entry_flag (v : Addr) (n : Nat) (s : State) (f : Flag) :
    (s.entry v n).flag f = if f = .b then false else if f = .i then true else if f = .u then true else s.flag f := by
  have h := State.takeInterrupt_flag v false (s.setFlag .u true) f
  rw [State.setFlag_flag] at h
  exact h

theorem State.irq_masked {s : State} (h : s.flag .i = true) : s.irq = s := by simp [State.irq, h]

theorem State.irq_taken {s : State} (h : s.flag .i = false) : s.irq = s.entry irqVector irqCycles := by
  simp [State.irq, h]

/-- Everything the return does: three bytes popped, P without B and U, PC the two bytes after P. -/
theorem State.returnFromInterrupt_eq (s : State) :
    s.returnFromInterrupt =
      let b1 := s.bus.afterRead (stackAddr (s.sp + 1))
      let b2 := b1.afterRead (stackAddr (s.sp + 1 + 1))
      { s with sp := s.sp + 1 + 1 + 1, p := rtiStatus (s.read (stackAddr (s.sp + 1))),
               bus := b2.afterRead (stackAddr (s.sp + 1 + 1 + 1)),
               pc := joinBytes (b2.read (stackAddr (s.sp + 1 + 1 + 1))) (b1.read (stackAddr (s.sp + 1 + 1))) } := by
  apply State.ext <;> simp [State.returnFromInterrupt, State.pulledWord, State.pulled_eq, State.read_eq]

/-! ### The tick and reset -/

@[simp] theorem State.beginInstruction_a (s : State) : s.beginInstruction.a = s.a := by simp [State.beginInstruction, State.read_eq]
@[simp] theorem State.beginInstruction_x (s : State) : s.beginInstruction.x = s.x := by simp [State.beginInstruction, State.read_eq]
@[simp] theorem State.beginInstruction_y (s : State) : s.beginInstruction.y = s.y := by simp [State.beginInstruction, State.read_eq]
@[simp] theorem State.beginInstruction_sp (s : State) : s.beginInstruction.sp = s.sp := by simp [State.beginInstruction, State.read_eq]
@[simp] theorem State.beginInstruction_fetched (s : State) : s.beginInstruction.fetched = s.fetched := by simp [State.beginInstruction, State.read_eq]
@[simp] theorem State.beginInstruction_temp (s : State) : s.beginInstruction.temp = s.temp := by simp [State.beginInstruction, State.read_eq]
@[simp] theorem State.beginInstruction_addrAbs (s : State) : s.beginInstruction.addrAbs = s.addrAbs := by simp [State.beginInstruction, State.read_eq]
@[simp] theorem State.beginInstruction_addrRel (s : State) : s.beginInstruction.addrRel = s.addrRel := by simp [State.beginInstruction, State.read_eq]
@[simp] theorem State.beginInstruction_clockCount (s : State) : s.beginInstruction.clockCount = s.clockCount := by simp [State.beginInstruction, State.read_eq]
@[simp] theorem State.beginInstruction_boot (s : State) : s.beginInstruction.boot = s.boot := by simp [State.beginInstruction, State.read_eq]

@[simp] theorem State.beginInstruction_opcode (s : State) : s.beginInstruction.opcode = s.read s.pc := by
  simp [State.beginInstruction]
@[simp] theorem State.beginInstruction_p (s : State) : s.beginInstruction.p = putFlag .u true s.p := by
  simp [State.beginInstruction]
@[simp] theorem State.beginInstruction_pc (s : State) : s.beginInstruction.pc = s.pc + 1 := rfl
@[simp] theorem State.beginInstruction_countdown (s : State) :
    s.beginInstruction.countdown = (tableRow (s.read s.pc)).baseCycles := by
  simp [State.beginInstruction]

@[simp] theorem State.beginInstruction_bus (s : State) : s.beginInstruction.bus = s.bus.afterRead s.pc := rfl

@[simp] theorem State.resetSequence_bus (s : State) :
    s.resetSequence.bus = (s.bus.afterRead resetVector).afterRead (resetVector + 1) := rfl
@[simp] theorem State.resetSequence_clockCount (s : State) : s.resetSequence.clockCount = s.clockCount := rfl

/-- `State.reset` is what `reset()` leaves on a bus of zeros. -/
theorem State.reset_eq_resetSequence (s : State) (hm : s.bus = .ram []) (hc : s.clockCount = 0) :
    s.resetSequence = State.reset := by
  simp [State.resetSequence, State.readWord, State.readPair, State.read, State.afterReads, hm, hc, Bus.read, Bus.afterRead,
    Memory.read, Memory.lookup, emptyByte, State.reset, resetCycles, joinBytes]

/-- `State.reset` is the start under the default parameters. -/
theorem State.resetWith_default : State.resetWith defaultParams = State.reset :=
  State.reset_eq_resetSequence _ rfl rfl

end Sys2Proof.Machine
end

