-- ==== Sys2Proof/Laws/Frame.lean ====
section
/-! SUPPORT. How the frame terms of Safety.lean go through one access of the bus and through many. -/

namespace Sys2Proof.Machine

/-- The calls made on a pair add up. -/
theorem HostCalls.extend {Q Q' : List BusAccess → Prop} {s t u : State} (h : HostCalls Q s t) (e : BusAccess)
    (hu : ∀ pair calls, t.bus = .host pair calls → u.bus = .host pair (e :: calls)) (hq : ∀ more, Q more → Q' (e :: more)) :
    HostCalls Q' s u := by
  intro pair calls hs
  obtain ⟨more, ht, hm⟩ := h pair calls hs
  exact ⟨e :: more, by rw [hu _ _ ht]; rfl, hq more hm⟩

theorem MemoryBut.of_bus {addrs : List Addr} {s t : State} (h : t.bus = s.bus) : MemoryBut addrs s t := by
  refine ⟨fun hr => ⟨?_, fun a _ => by simp [State.read_eq, h]⟩, fun pair calls hs => ⟨[], by simp [h, hs], by simp⟩⟩
  obtain ⟨m, hm⟩ := hr
  exact ⟨m, by rw [h, hm]⟩

theorem MemoryBut.mono {addrs addrs' : List Addr} {s t : State} (h : MemoryBut addrs s t) (hl : ∀ a ∈ addrs, a ∈ addrs') :
    MemoryBut addrs' s t := by
  refine ⟨fun hr => ⟨(h.1 hr).1, fun a ha => (h.1 hr).2 a fun hc => ha (hl a hc)⟩, fun pair calls hs => ?_⟩
  obtain ⟨more, ht, hm⟩ := h.2 pair calls hs
  exact ⟨more, ht, fun a v hv => hl a (hm a v hv)⟩

/-- A read writes nothing. -/
theorem MemoryBut.afterRead {addrs : List Addr} {s t u : State} (h : MemoryBut addrs s t) {a : Addr}
    (hu : u.bus = t.bus.afterRead a) : MemoryBut addrs s u := by
  refine ⟨fun hr => ?_, h.2.extend (.read a (t.bus.read a)) (fun pair calls ht => by rw [hu, ht]; rfl) (by simp_all)⟩
  obtain ⟨⟨m, hm⟩, hk⟩ := h.1 hr
  have he : u.bus = t.bus := by rw [hu, hm]; rfl
  exact ⟨⟨m, by rw [he, hm]⟩, fun b hb => by rw [State.read_eq, he]; exact hk b hb⟩

/-- A write at a listed address changes no other. -/
theorem MemoryBut.write {addrs : List Addr} {s t u : State} (h : MemoryBut addrs s t) {a : Addr} {v : Byte}
    (hu : u.bus = t.bus.write a v) (ha : a ∈ addrs) : MemoryBut addrs s u := by
  refine ⟨fun hr => ?_, h.2.extend (.write a v) (fun pair calls ht => by rw [hu, ht]; rfl) fun more hm b w hw => ?_⟩
  rotate_left
  · rcases List.mem_cons.mp hw with e | e
    · cases e
      exact ha
    · exact hm b w e
  obtain ⟨⟨m, hm⟩, hk⟩ := h.1 hr
  have he : u.bus = .ram (m.write a v) := by rw [hu, hm]; rfl
  refine ⟨⟨_, he⟩, fun b hb => ?_⟩
  have hba : b ≠ a := fun e => hb (e ▸ ha)
  rw [← hk b hb, State.read_eq, State.read_eq, he, hm]
  exact Memory.read_write_other m v hba

/-- Only the bus counts. -/
theorem MemoryBut.congr_bus {addrs : List Addr} {s t u : State} (h : MemoryBut addrs s t) (hu : u.bus = t.bus) :
    MemoryBut addrs s u := by
  refine ⟨fun hr => ?_, fun pair calls hs => ?_⟩
  · obtain ⟨⟨m, hm⟩, hk⟩ := h.1 hr
    exact ⟨⟨m, by rw [hu, hm]⟩, fun b hb => by rw [State.read_eq, hu]; exact hk b hb⟩
  · obtain ⟨more, ht, hm⟩ := h.2 pair calls hs
    exact ⟨more, by rw [hu]; exact ht, hm⟩

theorem MemoryBut.afterReads {addrs : List Addr} {s t u : State} (h : MemoryBut addrs s t) {l : List Addr}
    (hu : u.bus = (t.afterReads l).bus) : MemoryBut addrs s u := by
  induction l generalizing t with
  | nil => exact h.congr_bus hu
  | cons a rest ih => exact ih (h.afterRead (u := t.afterRead a) rfl) hu

/-- The evaluation of a mode writes nothing. -/
theorem memoryBut_address (addrs : List Addr) (o : Operand) (s : State) : MemoryBut addrs s (s.address o) :=
  (MemoryBut.of_bus rfl).afterReads (State.address_bus o s)

/-- Neither does `fetch()` after it. -/
theorem memoryBut_fetch (addrs : List Addr) (o : Operand) (s : State) : MemoryBut addrs s ((s.address o).fetch o) := by
  by_cases h : o = .imp
  · exact (memoryBut_address addrs o s).congr_bus (by simp [State.fetch_bus, h])
  · exact (memoryBut_address addrs o s).afterRead (by rw [State.fetch_bus, if_neg h])

/-- A write stores its byte, whatever came before it that left the pair a longer list of calls. -/
theorem Stored.write {addrs : List Addr} {s t u : State} (h : MemoryBut addrs s t) {a : Addr} {v : Byte}
    (hu : u.bus = t.bus.write a v) : Stored a v s u := by
  refine ⟨fun hr => ?_, h.2.extend (.write a v) (fun pair calls ht => by rw [hu, ht]; rfl) (by simp)⟩
  obtain ⟨⟨m, hm⟩, _⟩ := h.1 hr
  rw [State.read_eq, hu, hm]
  exact Memory.read_write_same m a v

/-- What is stored stays, whatever comes after it that does not write there. -/
theorem Stored.keep {addrs : List Addr} {s t u : State} {a : Addr} {v : Byte} (h : Stored a v s t) (ht : OnRam s → OnRam t)
    (hu : MemoryBut addrs t u) (ha : a ∉ addrs) : Stored a v s u := by
  refine ⟨fun hr => ((hu.1 (ht hr)).2 a ha).trans (h.1 hr), fun pair calls hs => ?_⟩
  obtain ⟨more, hb, hm⟩ := h.2 pair calls hs
  obtain ⟨more', hb', _⟩ := hu.2 pair (more ++ calls) hb
  exact ⟨more' ++ more, by rw [hb', List.append_assoc], List.mem_append_right _ hm⟩

end Sys2Proof.Machine
end

