-- ==== Sys2Proof/Laws/PerInstr.lean ====
section
/-! SUPPORT. Facts about every instruction as syntax, one lemma for each constructor. -/

namespace Sys2Proof.Laws

/-! ### Row: a well-formed instruction has an opcode whose row names its operation, its mode and itself -/

/-- The opcode of a well-formed instruction is a row of the table that decodes to it. -/
def Row.Statement (i : Instr) : Prop :=
  ∀ p, i.wf p = true → ∃ b, i.opcode = some b ∧ ((tableRow b).op = i.op ∧ rowMode p b = i.mode) ∧
    assemble i.op b i.operand = some i ∧ (i.op = .unused → p.illegal = .nop)

/-- The case of an instruction whose opcode is the one listed for its operation and mode. -/
theorem Row.listed {i : Instr} (hop : i.op ≠ .brk ∧ i.op ≠ .nop ∧ i.op ≠ .unused)
    (hcode : i.opcode = i.op.encodings.lookup i.mode) (hasm : ∀ b, plainRow b i.op i.mode = true → assemble i.op b i.operand = some i) :
    Row.Statement i := by
  intro p h
  have hm : i.mode ∈ i.op.modes := by
    simp only [Instr.wf, Bool.and_eq_true, Instr.modeOk, List.contains_iff_mem] at h
    exact h.1
  have hrow := encodings_agree i.op hop i.mode hm
  cases hl : i.op.encodings.lookup i.mode with
  | none => simp [hl] at hrow
  | some b =>
    simp only [hl] at hrow
    exact ⟨b, hcode.trans hl, rowMode_plain p hrow, hasm b hrow, fun hu => absurd hu hop.2.2⟩

/-- A row of SBC other than the second one is not 0xEB. -/
theorem Row.sbc_listed_ne (m : Mode) (b : Byte) (hm : m ∈ Op.sbc.modes) (h : Op.sbc.encodings.lookup m = some b) : b ≠ 0xEB := by
  have := (by decide : ∀ m ∈ Op.sbc.modes, Op.sbc.encodings.lookup m ≠ some 0xEB) m hm
  intro hb
  exact this (hb ▸ h)

theorem Row.adc (o : Operand) : Row.Statement (.adc o) := Row.listed ⟨nofun, nofun, nofun⟩ rfl (fun _ _ => rfl)
theorem Row.sbc (viaEB : Bool) (o : Operand) : Row.Statement (.sbc viaEB o) := by
  cases viaEB with
  | true =>
    intro p h
    have hm : o.mode = .imm := by
      simp only [Instr.wf, Bool.and_eq_true] at h
      simpa [Instr.rowOk] using h.2
    exact ⟨0xEB, rfl, by simpa [Instr.op, Instr.mode, Instr.operand, hm] using rowMode_plain p sbc_second, rfl, by simp [Instr.op]⟩
  | false =>
    intro p h
    have hm : o.mode ∈ Op.sbc.modes := by
      simp only [Instr.wf, Bool.and_eq_true, Instr.modeOk, List.contains_iff_mem] at h
      exact h.1
    have hrow := encodings_agree .sbc (by decide) o.mode hm
    cases hl : Op.sbc.encodings.lookup o.mode with
    | none => simp [hl] at hrow
    | some b =>
      simp only [hl] at hrow
      have hne : ¬b = 0xEB#8 := Row.sbc_listed_ne o.mode b hm hl
      exact ⟨b, hl, rowMode_plain p hrow, by simp [assemble, Instr.op, Instr.operand, hne], by simp [Instr.op]⟩
theorem Row.and (o : Operand) : Row.Statement (.and o) := Row.listed ⟨nofun, nofun, nofun⟩ rfl (fun _ _ => rfl)
theorem Row.ora (o : Operand) : Row.Statement (.ora o) := Row.listed ⟨nofun, nofun, nofun⟩ rfl (fun _ _ => rfl)
theorem Row.eor (o : Operand) : Row.Statement (.eor o) := Row.listed ⟨nofun, nofun, nofun⟩ rfl (fun _ _ => rfl)
theorem Row.bit (o : Operand) : Row.Statement (.bit o) := Row.listed ⟨nofun, nofun, nofun⟩ rfl (fun _ _ => rfl)
theorem Row.cmp (o : Operand) : Row.Statement (.cmp o) := Row.listed ⟨nofun, nofun, nofun⟩ rfl (fun _ _ => rfl)
theorem Row.cpx (o : Operand) : Row.Statement (.cpx o) := Row.listed ⟨nofun, nofun, nofun⟩ rfl (fun _ _ => rfl)
theorem Row.cpy (o : Operand) : Row.Statement (.cpy o) := Row.listed ⟨nofun, nofun, nofun⟩ rfl (fun _ _ => rfl)
theorem Row.asl (o : Operand) : Row.Statement (.asl o) := Row.listed ⟨nofun, nofun, nofun⟩ rfl (fun _ _ => rfl)
theorem Row.lsr (o : Operand) : Row.Statement (.lsr o) := Row.listed ⟨nofun, nofun, nofun⟩ rfl (fun _ _ => rfl)
theorem Row.rol (o : Operand) : Row.Statement (.rol o) := Row.listed ⟨nofun, nofun, nofun⟩ rfl (fun _ _ => rfl)
theorem Row.ror (o : Operand) : Row.Statement (.ror o) := Row.listed ⟨nofun, nofun, nofun⟩ rfl (fun _ _ => rfl)
theorem Row.inc (o : Operand) : Row.Statement (.inc o) := Row.listed ⟨nofun, nofun, nofun⟩ rfl (fun _ _ => rfl)
theorem Row.dec (o : Operand) : Row.Statement (.dec o) := Row.listed ⟨nofun, nofun, nofun⟩ rfl (fun _ _ => rfl)
theorem Row.inx : Row.Statement (.inx) := Row.listed ⟨nofun, nofun, nofun⟩ rfl (fun _ _ => rfl)
theorem Row.iny : Row.Statement (.iny) := Row.listed ⟨nofun, nofun, nofun⟩ rfl (fun _ _ => rfl)
theorem Row.dex : Row.Statement (.dex) := Row.listed ⟨nofun, nofun, nofun⟩ rfl (fun _ _ => rfl)
theorem Row.dey : Row.Statement (.dey) := Row.listed ⟨nofun, nofun, nofun⟩ rfl (fun _ _ => rfl)
theorem Row.lda (o : Operand) : Row.Statement (.lda o) := Row.listed ⟨nofun, nofun, nofun⟩ rfl (fun _ _ => rfl)
theorem Row.ldx (o : Operand) : Row.Statement (.ldx o) := Row.listed ⟨nofun, nofun, nofun⟩ rfl (fun _ _ => rfl)
theorem Row.ldy (o : Operand) : Row.Statement (.ldy o) := Row.listed ⟨nofun, nofun, nofun⟩ rfl (fun _ _ => rfl)
theorem Row.sta (o : Operand) : Row.Statement (.sta o) := Row.listed ⟨nofun, nofun, nofun⟩ rfl (fun _ _ => rfl)
theorem Row.stx (o : Operand) : Row.Statement (.stx o) := Row.listed ⟨nofun, nofun, nofun⟩ rfl (fun _ _ => rfl)
theorem Row.sty (o : Operand) : Row.Statement (.sty o) := Row.listed ⟨nofun, nofun, nofun⟩ rfl (fun _ _ => rfl)
theorem Row.tax : Row.Statement (.tax) := Row.listed ⟨nofun, nofun, nofun⟩ rfl (fun _ _ => rfl)
theorem Row.tay : Row.Statement (.tay) := Row.listed ⟨nofun, nofun, nofun⟩ rfl (fun _ _ => rfl)
theorem Row.txa : Row.Statement (.txa) := Row.listed ⟨nofun, nofun, nofun⟩ rfl (fun _ _ => rfl)
theorem Row.tya : Row.Statement (.tya) := Row.listed ⟨nofun, nofun, nofun⟩ rfl (fun _ _ => rfl)
theorem Row.tsx : Row.Statement (.tsx) := Row.listed ⟨nofun, nofun, nofun⟩ rfl (fun _ _ => rfl)
theorem Row.txs : Row.Statement (.txs) := Row.listed ⟨nofun, nofun, nofun⟩ rfl (fun _ _ => rfl)
theorem Row.pha : Row.Statement (.pha) := Row.listed ⟨nofun, nofun, nofun⟩ rfl (fun _ _ => rfl)
theorem Row.php : Row.Statement (.php) := Row.listed ⟨nofun, nofun, nofun⟩ rfl (fun _ _ => rfl)
theorem Row.pla : Row.Statement (.pla) := Row.listed ⟨nofun, nofun, nofun⟩ rfl (fun _ _ => rfl)
theorem Row.plp : Row.Statement (.plp) := Row.listed ⟨nofun, nofun, nofun⟩ rfl (fun _ _ => rfl)
theorem Row.clc : Row.Statement (.clc) := Row.listed ⟨nofun, nofun, nofun⟩ rfl (fun _ _ => rfl)
theorem Row.sec : Row.Statement (.sec) := Row.listed ⟨nofun, nofun, nofun⟩ rfl (fun _ _ => rfl)
theorem Row.cld : Row.Statement (.cld) := Row.listed ⟨nofun, nofun, nofun⟩ rfl (fun _ _ => rfl)
theorem Row.sed : Row.Statement (.sed) := Row.listed ⟨nofun, nofun, nofun⟩ rfl (fun _ _ => rfl)
theorem Row.cli : Row.Statement (.cli) := Row.listed ⟨nofun, nofun, nofun⟩ rfl (fun _ _ => rfl)
theorem Row.sei : Row.Statement (.sei) := Row.listed ⟨nofun, nofun, nofun⟩ rfl (fun _ _ => rfl)
theorem Row.clv : Row.Statement (.clv) := Row.listed ⟨nofun, nofun, nofun⟩ rfl (fun _ _ => rfl)
theorem Row.bpl (d : Byte) : Row.Statement (.bpl d) := Row.listed ⟨nofun, nofun, nofun⟩ rfl (fun _ _ => rfl)
theorem Row.bmi (d : Byte) : Row.Statement (.bmi d) := Row.listed ⟨nofun, nofun, nofun⟩ rfl (fun _ _ => rfl)
theorem Row.bvc (d : Byte) : Row.Statement (.bvc d) := Row.listed ⟨nofun, nofun, nofun⟩ rfl (fun _ _ => rfl)
theorem Row.bvs (d : Byte) : Row.Statement (.bvs d) := Row.listed ⟨nofun, nofun, nofun⟩ rfl (fun _ _ => rfl)
theorem Row.bcc (d : Byte) : Row.Statement (.bcc d) := Row.listed ⟨nofun, nofun, nofun⟩ rfl (fun _ _ => rfl)
theorem Row.bcs (d : Byte) : Row.Statement (.bcs d) := Row.listed ⟨nofun, nofun, nofun⟩ rfl (fun _ _ => rfl)
theorem Row.bne (d : Byte) : Row.Statement (.bne d) := Row.listed ⟨nofun, nofun, nofun⟩ rfl (fun _ _ => rfl)
theorem Row.beq (d : Byte) : Row.Statement (.beq d) := Row.listed ⟨nofun, nofun, nofun⟩ rfl (fun _ _ => rfl)
theorem Row.jmp (o : Operand) : Row.Statement (.jmp o) := Row.listed ⟨nofun, nofun, nofun⟩ rfl (fun _ _ => rfl)
theorem Row.jsr (addr : Addr) : Row.Statement (.jsr addr) := Row.listed ⟨nofun, nofun, nofun⟩ rfl (fun _ _ => rfl)
theorem Row.rts : Row.Statement (.rts) := Row.listed ⟨nofun, nofun, nofun⟩ rfl (fun _ _ => rfl)
theorem Row.rti : Row.Statement (.rti) := Row.listed ⟨nofun, nofun, nofun⟩ rfl (fun _ _ => rfl)
theorem Row.brk (o : Operand) : Row.Statement (.brk o) := by
  intro p h
  have hm : o.mode = brkRowMode p := by
    simp only [Instr.wf, Bool.and_eq_true] at h
    simpa [Instr.rowOk] using h.2
  refine ⟨0x00, ?_, ⟨(by decide : (tableRow 0x00).op = .brk), ?_⟩, rfl, by simp [Instr.op]⟩
  · cases hb : p.brkMode <;> simp [Instr.opcode, Instr.op, Instr.mode, Instr.operand, hm, brkRowMode, hb] <;> rfl
  · cases hb : p.brkMode <;> simp [rowMode, brkRowMode, Instr.mode, Instr.operand, hm, hb]
theorem Row.nop (code : Byte) (o : Operand) : Row.Statement (.nop code o) := by
  intro p h
  have hm : nopRowMode p code = some o.mode := by
    simp only [Instr.wf, Bool.and_eq_true] at h
    simpa [Instr.rowOk] using h.2
  refine ⟨code, rfl, ?_, rfl, by simp [Instr.op]⟩
  by_cases hc : code = 0xEA
  · subst hc
    have : o.mode = .imp := by simpa [nopRowMode] using hm.symm
    simpa [Instr.op, Instr.mode, Instr.operand, this] using rowMode_plain p nop_official
  · simp only [nopRowMode, hc, if_false] at hm
    cases hl : unofficialNops.lookup code with
    | none => simp [hl] at hm
    | some m =>
      have hrow := unofficialNops_agree _ (mem_of_lookup hl)
      simp only [Bool.and_eq_true, beq_iff_eq, bne_iff_ne] at hrow
      obtain ⟨⟨⟨h1, h2⟩, h3⟩, h4⟩ := hrow
      have h0 : ¬code = 0#8 := h3
      refine ⟨h1, ?_⟩
      cases hp : p.nopModes <;> simp [hl, hp] at hm <;> simp [rowMode, h0, h4, hp, h2, hm, Instr.mode, Instr.operand]
theorem Row.unused (code : Byte) : Row.Statement (.unused code) := by
  intro p h
  simp only [Instr.wf, Bool.and_eq_true, Instr.rowOk, beq_iff_eq, List.contains_iff_mem] at h
  exact ⟨code, rfl, rowMode_plain p (unusedRows_agree code h.2.1), rfl, fun _ => h.2.2⟩

/-- Every instruction has its row. -/
theorem Row.all (i : Instr) : Row.Statement i := by
  cases i with
  | adc o => exact Row.adc o
  | sbc viaEB o => exact Row.sbc viaEB o
  | and o => exact Row.and o
  | ora o => exact Row.ora o
  | eor o => exact Row.eor o
  | bit o => exact Row.bit o
  | cmp o => exact Row.cmp o
  | cpx o => exact Row.cpx o
  | cpy o => exact Row.cpy o
  | asl o => exact Row.asl o
  | lsr o => exact Row.lsr o
  | rol o => exact Row.rol o
  | ror o => exact Row.ror o
  | inc o => exact Row.inc o
  | dec o => exact Row.dec o
  | inx => exact Row.inx
  | iny => exact Row.iny
  | dex => exact Row.dex
  | dey => exact Row.dey
  | lda o => exact Row.lda o
  | ldx o => exact Row.ldx o
  | ldy o => exact Row.ldy o
  | sta o => exact Row.sta o
  | stx o => exact Row.stx o
  | sty o => exact Row.sty o
  | tax => exact Row.tax
  | tay => exact Row.tay
  | txa => exact Row.txa
  | tya => exact Row.tya
  | tsx => exact Row.tsx
  | txs => exact Row.txs
  | pha => exact Row.pha
  | php => exact Row.php
  | pla => exact Row.pla
  | plp => exact Row.plp
  | clc => exact Row.clc
  | sec => exact Row.sec
  | cld => exact Row.cld
  | sed => exact Row.sed
  | cli => exact Row.cli
  | sei => exact Row.sei
  | clv => exact Row.clv
  | bpl d => exact Row.bpl d
  | bmi d => exact Row.bmi d
  | bvc d => exact Row.bvc d
  | bvs d => exact Row.bvs d
  | bcc d => exact Row.bcc d
  | bcs d => exact Row.bcs d
  | bne d => exact Row.bne d
  | beq d => exact Row.beq d
  | jmp o => exact Row.jmp o
  | jsr addr => exact Row.jsr addr
  | rts => exact Row.rts
  | rti => exact Row.rti
  | brk o => exact Row.brk o
  | nop code o => exact Row.nop code o
  | unused code => exact Row.unused code

/-! ### Length: the encoding is as long as the mode says -/

/-- The encoder gives a well-formed instruction its length (30_encoding.md R92). -/
def Length.Statement (i : Instr) : Prop := ∀ p, i.wf p = true → (encode i).length = i.length

/-- The length follows from the row. -/
theorem Length.of_row {i : Instr} (h : Row.Statement i) : Length.Statement i := by
  intro p hp
  obtain ⟨b, hb, _⟩ := h p hp
  simp only [encode, hb, List.length_cons, Operand.bytes_length, Instr.length, Instr.mode]
  exact Nat.add_comm _ _

theorem Length.adc (o : Operand) : Length.Statement (.adc o) := Length.of_row (Row.adc o)
theorem Length.sbc (viaEB : Bool) (o : Operand) : Length.Statement (.sbc viaEB o) := Length.of_row (Row.sbc viaEB o)
theorem Length.and (o : Operand) : Length.Statement (.and o) := Length.of_row (Row.and o)
theorem Length.ora (o : Operand) : Length.Statement (.ora o) := Length.of_row (Row.ora o)
theorem Length.eor (o : Operand) : Length.Statement (.eor o) := Length.of_row (Row.eor o)
theorem Length.bit (o : Operand) : Length.Statement (.bit o) := Length.of_row (Row.bit o)
theorem Length.cmp (o : Operand) : Length.Statement (.cmp o) := Length.of_row (Row.cmp o)
theorem Length.cpx (o : Operand) : Length.Statement (.cpx o) := Length.of_row (Row.cpx o)
theorem Length.cpy (o : Operand) : Length.Statement (.cpy o) := Length.of_row (Row.cpy o)
theorem Length.asl (o : Operand) : Length.Statement (.asl o) := Length.of_row (Row.asl o)
theorem Length.lsr (o : Operand) : Length.Statement (.lsr o) := Length.of_row (Row.lsr o)
theorem Length.rol (o : Operand) : Length.Statement (.rol o) := Length.of_row (Row.rol o)
theorem Length.ror (o : Operand) : Length.Statement (.ror o) := Length.of_row (Row.ror o)
theorem Length.inc (o : Operand) : Length.Statement (.inc o) := Length.of_row (Row.inc o)
theorem Length.dec (o : Operand) : Length.Statement (.dec o) := Length.of_row (Row.dec o)
theorem Length.inx : Length.Statement (.inx) := Length.of_row Row.inx
theorem Length.iny : Length.Statement (.iny) := Length.of_row Row.iny
theorem Length.dex : Length.Statement (.dex) := Length.of_row Row.dex
theorem Length.dey : Length.Statement (.dey) := Length.of_row Row.dey
theorem Length.lda (o : Operand) : Length.Statement (.lda o) := Length.of_row (Row.lda o)
theorem Length.ldx (o : Operand) : Length.Statement (.ldx o) := Length.of_row (Row.ldx o)
theorem Length.ldy (o : Operand) : Length.Statement (.ldy o) := Length.of_row (Row.ldy o)
theorem Length.sta (o : Operand) : Length.Statement (.sta o) := Length.of_row (Row.sta o)
theorem Length.stx (o : Operand) : Length.Statement (.stx o) := Length.of_row (Row.stx o)
theorem Length.sty (o : Operand) : Length.Statement (.sty o) := Length.of_row (Row.sty o)
theorem Length.tax : Length.Statement (.tax) := Length.of_row Row.tax
theorem Length.tay : Length.Statement (.tay) := Length.of_row Row.tay
theorem Length.txa : Length.Statement (.txa) := Length.of_row Row.txa
theorem Length.tya : Length.Statement (.tya) := Length.of_row Row.tya
theorem Length.tsx : Length.Statement (.tsx) := Length.of_row Row.tsx
theorem Length.txs : Length.Statement (.txs) := Length.of_row Row.txs
theorem Length.pha : Length.Statement (.pha) := Length.of_row Row.pha
theorem Length.php : Length.Statement (.php) := Length.of_row Row.php
theorem Length.pla : Length.Statement (.pla) := Length.of_row Row.pla
theorem Length.plp : Length.Statement (.plp) := Length.of_row Row.plp
theorem Length.clc : Length.Statement (.clc) := Length.of_row Row.clc
theorem Length.sec : Length.Statement (.sec) := Length.of_row Row.sec
theorem Length.cld : Length.Statement (.cld) := Length.of_row Row.cld
theorem Length.sed : Length.Statement (.sed) := Length.of_row Row.sed
theorem Length.cli : Length.Statement (.cli) := Length.of_row Row.cli
theorem Length.sei : Length.Statement (.sei) := Length.of_row Row.sei
theorem Length.clv : Length.Statement (.clv) := Length.of_row Row.clv
theorem Length.bpl (d : Byte) : Length.Statement (.bpl d) := Length.of_row (Row.bpl d)
theorem Length.bmi (d : Byte) : Length.Statement (.bmi d) := Length.of_row (Row.bmi d)
theorem Length.bvc (d : Byte) : Length.Statement (.bvc d) := Length.of_row (Row.bvc d)
theorem Length.bvs (d : Byte) : Length.Statement (.bvs d) := Length.of_row (Row.bvs d)
theorem Length.bcc (d : Byte) : Length.Statement (.bcc d) := Length.of_row (Row.bcc d)
theorem Length.bcs (d : Byte) : Length.Statement (.bcs d) := Length.of_row (Row.bcs d)
theorem Length.bne (d : Byte) : Length.Statement (.bne d) := Length.of_row (Row.bne d)
theorem Length.beq (d : Byte) : Length.Statement (.beq d) := Length.of_row (Row.beq d)
theorem Length.jmp (o : Operand) : Length.Statement (.jmp o) := Length.of_row (Row.jmp o)
theorem Length.jsr (addr : Addr) : Length.Statement (.jsr addr) := Length.of_row (Row.jsr addr)
theorem Length.rts : Length.Statement (.rts) := Length.of_row Row.rts
theorem Length.rti : Length.Statement (.rti) := Length.of_row Row.rti
theorem Length.brk (o : Operand) : Length.Statement (.brk o) := Length.of_row (Row.brk o)
theorem Length.nop (code : Byte) (o : Operand) : Length.Statement (.nop code o) := Length.of_row (Row.nop code o)
theorem Length.unused (code : Byte) : Length.Statement (.unused code) := Length.of_row (Row.unused code)

end Sys2Proof.Laws
end

