-- ==== Sys2Proof/Laws/Step.lean ====
section
/-! SUPPORT. What one step and one host call can do, said once. -/

namespace Sys2Proof.Machine

/-- Every meaning answers a next state that ends with `finish` (R121 steps 7 and 8). -/
theorem exec_finishes (i : Instr) (s : State) :
    ∃ (hint : Bool) (f : State → State), exec i s = .next (s.runOperation i.operand hint f) := by
  cases i <;> exact ⟨_, _, rfl⟩

/-- No meaning stops. -/
theorem exec_next (i : Instr) (s : State) : ∃ t, exec i s = .next t := by
  obtain ⟨hint, f, h⟩ := exec_finishes i s
  exact ⟨_, h⟩

/-- Everything a clock that answers a next state can have done (R120): an idle tick, or the start of the instruction at PC. -/
theorem clockWith_cases {p : Params} {s t : State} (h : clockWith p s = .next t) :
    s.boot = .live ∧
      ((s.countdown ≠ 0 ∧ t = s.tick) ∨
       (s.countdown = 0 ∧ ∃ i rest u, decode p (s.instructionBytes p) = .ok (i, rest) ∧
          exec i s.beginInstruction = .next u ∧ t = u.tick)) := by
  unfold clockWith at h
  split at h
  · cases h
  · cases h
  · rename_i hb
    refine ⟨hb, ?_⟩
    split at h
    · rename_i hc
      unfold startInstruction at h
      split at h
      · rename_i i rest hd
        obtain ⟨u, hu⟩ := exec_next i s.beginInstruction
        rw [hu] at h
        simp only [afterStart, Host.Outcome.next.injEq] at h
        exact .inr ⟨hc, i, rest, u, hd, hu, h.symm⟩
      · cases h
    · rename_i hc
      simp only [Host.Outcome.next.injEq] at h
      exact .inl ⟨hc, h.symm⟩

/-- An idle tick (R120). -/
theorem clockWith_idle {p : Params} {s : State} (hb : s.boot = .live) (hc : s.countdown ≠ 0) :
    clockWith p s = .next s.tick := by
  simp [clockWith, hb, hc]

/-- The tick that starts an instruction (R120, R121). -/
theorem clockWith_start {p : Params} {s u : State} {i : Instr} {rest : List Byte} (hb : s.boot = .live)
    (hc : s.countdown = 0) (hd : decode p (s.instructionBytes p) = .ok (i, rest)) (hu : exec i s.beginInstruction = .next u) :
    clockWith p s = .next u.tick := by
  simp [clockWith, hb, hc, startInstruction, hd, hu, afterStart]

/-- Everything a host call that answers a next state can have done. -/
theorem call_cases {c : HostCall} {s t : State} (h : call c s = .next t) :
    (c = .clock ∧ step s = .next t) ∨
    (c = .reset ∧ s.boot ≠ .noBus ∧ t = s.resetSequence) ∨
    (c = .irq ∧ s.boot = .live ∧ t = s.irq) ∨
    (c = .nmi ∧ s.boot = .live ∧ t = s.nmi) ∨
    (∃ b, c = .connectBus b ∧ t = { s with bus := b, boot := if s.boot = .live then .live else .noReset }) ∨
    (∃ a, c = .hostRead a ∧ s.boot ≠ .noBus ∧ t = s.afterRead a) ∨
    (∃ a v, c = .hostWrite a v ∧ s.boot ≠ .noBus ∧ t = s.write a v) := by
  cases c with
  | clock => exact .inl ⟨rfl, h⟩
  | reset => cases hb : s.boot <;> simp [call, callWith, callReset, hb] at h <;> simp [h]
  | irq => cases hb : s.boot <;> simp [call, callWith, callIrq, hb] at h ; simp [h]
  | nmi => cases hb : s.boot <;> simp [call, callWith, callNmi, hb] at h ; simp [h]
  | connectBus b => cases hb : s.boot <;> simp [call, callWith, callConnectBus, hb] at h <;> simp [← h]
  | hostRead a => cases hb : s.boot <;> simp [call, callWith, callHostRead, hb] at h <;> simp [h]
  | hostWrite a v => cases hb : s.boot <;> simp [call, callWith, callHostWrite, hb] at h <;> simp [h]

/-- The calls in a list, one after the other. -/
theorem runCalls_append (cs ds : List HostCall) (s : State) :
    runCalls (cs ++ ds) s =
      match runCalls cs s with
      | .next t => runCalls ds t
      | .fault r => .fault r
      | .refused r => .refused r := by
  induction cs generalizing s with
  | nil => rfl
  | cons c rest ih =>
    simp only [List.cons_append, runCalls]
    cases call c s with
    | next t => exact ih t
    | fault r => cases r
    | refused r => rfl

end Sys2Proof.Machine
end

