-- ==== Sys2Proof/Tests/Slice0.lean ====
section
/-! SUPPORT. The model's own tests, and for each statement with hypotheses a named witness that meets them.
The expected values are those of spec/95_test_vectors.md (the vector is named) or of the rule named. -/

namespace Sys2Proof.Tests

open Sys2Proof.Machine Sys2Proof.Shapes

set_option Elab.async false

/-- The state after reset, its ticks spent, with PC and the bytes at it. -/
def machine (pc : Addr) (bytes : List Byte) : State :=
  ({ State.reset with pc := pc, countdown := 0 }).writeBytes pc bytes

/-- Bytes written to memory. -/
def poke (cells : List (Addr × Byte)) (s : State) : State := cells.foldl (fun s c => s.write c.1 c.2) s

/-- A view of the state after one step. -/
def after {α : Type} (s : State) (view : State → α) : Option α :=
  match step s with
  | .next t => some (view t)
  | .fault _ => none
  | .refused _ => none

/-- A view of the state after a list of host calls. -/
def afterCalls {α : Type} (cs : List HostCall) (s : State) (view : State → α) : Option α :=
  match runCalls cs s with
  | .next t => some (view t)
  | .fault _ => none
  | .refused _ => none

/-- The state that an answer leaves; any state if it stops. -/
def stateOf : Result → State
  | .next t => t
  | .fault _ => State.reset
  | .refused _ => State.reset

/-- The answer is a next state. -/
def answersNext : Result → Bool
  | .next _ => true
  | .fault _ => false
  | .refused _ => false

theorem next_stateOf {r : Result} (h : answersNext r = true) : r = .next (stateOf r) := by
  cases r with
  | next t => rfl
  | fault r => cases h
  | refused r => cases h

theorem exec_stateOf (i : Instr) (s : State) : exec i s = .next (stateOf (exec i s)) := by
  obtain ⟨t, h⟩ := exec_next i s
  rw [h]
  rfl

/-- The bytes decode to the instruction, and no byte is left. -/
def reads (bytes : List Byte) (i : Instr) : Bool :=
  match decode defaultParams bytes with
  | .ok (j, rest) => decide (j = i) && rest.isEmpty
  | .error _ => false

/-! ### WellFormed refuses an ill-formed term of each check -/

theorem smoke_mode : (Instr.sta (.imm 0x01)).modeOk = false := by decide
theorem smoke_mode_wf : (Instr.sta (.imm 0x01)).wf defaultParams = false := by decide
theorem smoke_second_sbc : (Instr.sbc true (.zp0 0x01)).rowOk defaultParams = false := by decide
theorem smoke_nop_code : (Instr.nop 0xEB .imp).rowOk defaultParams = false := by decide
theorem smoke_nop_mode : (Instr.nop 0x1C .imp).rowOk defaultParams = false := by decide
theorem smoke_nop_implied : (Instr.nop 0x1C .imp).rowOk { defaultParams with nopModes := .implied } = true := by decide
theorem smoke_unused_code : (Instr.unused 0xEA).rowOk defaultParams = false := by decide
theorem smoke_unused_policy : (Instr.unused 0x02).rowOk { defaultParams with illegal := .refuse } = false := by decide
theorem smoke_brk_mode : (Instr.brk (.imm 0x00)).rowOk defaultParams = false := by decide
theorem smoke_rows_in_table : (unofficialNops.length, unusedRows.length) = (28, 76) := by decide

/-! ### Decoding: every constructor, the opcode's bits as spec/opcode_table.json writes its encoding -/

theorem test_decode_arith : (
    reads [0b01101001, 0x01] (.adc (.imm 0x01)) &&
    reads [0b11111101, 0xF0, 0x12] (.sbc false (.abx 0x12F0)) &&
    reads [0b00110001, 0x20] (.and (.izy 0x20)) &&
    reads [0b00010101, 0x80] (.ora (.zpx 0x80)) &&
    reads [0b01011001, 0x00, 0x12] (.eor (.aby 0x1200)) &&
    reads [0b00101100, 0x34, 0x12] (.bit (.abs 0x1234)) &&
    reads [0b11000001, 0x20] (.cmp (.izx 0x20)) &&
    reads [0b11100100, 0x10] (.cpx (.zp0 0x10)) &&
    reads [0b11001100, 0x34, 0x12] (.cpy (.abs 0x1234))) = true := by decide +kernel

theorem test_decode_shift : (
    reads [0b00001010] (.asl .imp) &&
    reads [0b01000110, 0x10] (.lsr (.zp0 0x10)) &&
    reads [0b00110110, 0x10] (.rol (.zpx 0x10)) &&
    reads [0b01101110, 0x34, 0x12] (.ror (.abs 0x1234)) &&
    reads [0b11111110, 0xF0, 0x12] (.inc (.abx 0x12F0)) &&
    reads [0b11010110, 0x10] (.dec (.zpx 0x10)) &&
    reads [0b11101000] (.inx) &&
    reads [0b11001000] (.iny) &&
    reads [0b11001010] (.dex) &&
    reads [0b10001000] (.dey)) = true := by decide +kernel

theorem test_decode_load_store : (
    reads [0b10101001, 0x5C] (.lda (.imm 0x5C)) &&
    reads [0b10110110, 0xF0] (.ldx (.zpy 0xF0)) &&
    reads [0b10111100, 0xF0, 0x12] (.ldy (.abx 0x12F0)) &&
    reads [0b10000001, 0x20] (.sta (.izx 0x20)) &&
    reads [0b10010110, 0xFF] (.stx (.zpy 0xFF)) &&
    reads [0b10001100, 0x34, 0x12] (.sty (.abs 0x1234)) &&
    reads [0b10101010] (.tax) &&
    reads [0b10101000] (.tay) &&
    reads [0b10001010] (.txa) &&
    reads [0b10011000] (.tya) &&
    reads [0b10111010] (.tsx) &&
    reads [0b10011010] (.txs)) = true := by decide +kernel

theorem test_decode_stack_flags : (
    reads [0b01001000] (.pha) &&
    reads [0b00001000] (.php) &&
    reads [0b01101000] (.pla) &&
    reads [0b00101000] (.plp) &&
    reads [0b00011000] (.clc) &&
    reads [0b00111000] (.sec) &&
    reads [0b11011000] (.cld) &&
    reads [0b11111000] (.sed) &&
    reads [0b01011000] (.cli) &&
    reads [0b01111000] (.sei) &&
    reads [0b10111000] (.clv)) = true := by decide +kernel

theorem test_decode_control : (
    reads [0b00010000, 0x04] (.bpl 0x04) &&
    reads [0b00110000, 0x04] (.bmi 0x04) &&
    reads [0b01010000, 0x04] (.bvc 0x04) &&
    reads [0b01110000, 0x04] (.bvs 0x04) &&
    reads [0b10010000, 0x04] (.bcc 0x04) &&
    reads [0b10110000, 0x04] (.bcs 0x04) &&
    reads [0b11010000, 0x04] (.bne 0x04) &&
    reads [0b11110000, 0x04] (.beq 0x04) &&
    reads [0b01101100, 0xFF, 0x12] (.jmp (.ind 0x12FF)) &&
    reads [0b00100000, 0x34, 0x12] (.jsr 0x1234) &&
    reads [0b01100000] (.rts) &&
    reads [0b01000000] (.rti) &&
    reads [0b00000000] (.brk .imp)) = true := by decide +kernel

theorem test_decode_nop_unused : (
    reads [0b11101010] (.nop 0xEA .imp) &&
    reads [0b10000000, 0x12] (.nop 0x80 (.imm 0x12)) &&
    reads [0b10011100, 0xF0, 0x12] (.nop 0x9C (.abx 0x12F0)) &&
    reads [0b11101011, 0x03] (.sbc true (.imm 0x03)) &&
    reads [0b00000010] (.unused 0x02)) = true := by decide +kernel

/-- A word numbered as the opcode table numbers it: the opcode in bits 7 to 0, the operand above; missing bits are 0. -/
theorem test_decode_table_word :
    (decodeTableWord 24 0x1234AD, decodeTableWord 16 0x5CA9, decodeTableWord 8 0xA9) =
      (some (.lda (.abs 0x1234)), some (.lda (.imm 0x5C)), some (.lda (.imm 0x00))) := by decide +kernel

/-- Under `refuse` a `???` row is rejected by name (R98); too few bytes are rejected too. -/
theorem test_decode_rejects :
    (decode { defaultParams with illegal := .refuse } [0x02] matches .error (.illegalOpcode 0x02)) ∧
    (decode defaultParams [0xAD, 0x34] matches .error .truncated) := by decide +kernel

/-- The host's placing of a word: the very next step runs it. -/
theorem test_with_fetch_word : after (State.reset.withFetchWord 16 0x5CA9) (fun t => (t.a, t.pc)) = some (0x5C, 0x0002) := by
  decide +kernel

/-! ### One step of each instruction -/

/-- Vector AR1. -/
theorem test_adc_overflow :
    after { machine 0x0200 [0x69, 0x01] with a := 0x7F } (fun t => (t.a, t.p)) = some (0x80, 0xE0) := by decide +kernel

/-- Vector AR3. -/
theorem test_adc_carry_out :
    after { machine 0x0200 [0x69, 0x01] with a := 0xFF } (fun t => (t.a, t.p)) = some (0x00, 0x23) := by decide +kernel

/-- Vector AR13. -/
theorem test_sbc_overflow :
    after { machine 0x0200 [0xE9, 0x01] with a := 0x80, p := 0x21 } (fun t => (t.a, t.p)) = some (0x7F, 0x61) := by decide +kernel

/-- Vector AR17. -/
theorem test_sbc_second_row :
    after { machine 0x0200 [0xEB, 0x03] with a := 0x05, p := 0x21 } (fun t => (t.a, t.countdown + 1)) = some (0x02, 2) := by decide +kernel

/-- Vector LG2. -/
theorem test_and_immediate :
    after { machine 0x0200 [0x29, 0xC0] with a := 0xFF, p := 0x23 } (fun t => (t.a, t.p)) = some (0xC0, 0xA1) := by decide +kernel

/-- Vector LG7. -/
theorem test_and_pointer_across_page :
    after ({ machine 0x0200 [0x31, 0x20] with a := 0xFF, y := 0x20 } |> poke [(0x0020, 0xF0), (0x0021, 0x30), (0x3110, 0x3C)]) (fun t => (t.a, t.countdown + 1)) = some (0x3C, 6) := by decide +kernel

/-- Vector LG3. -/
theorem test_ora_immediate :
    after { machine 0x0200 [0x09, 0x80] with a := 0x01 } (fun t => (t.a, t.p)) = some (0x81, 0xA0) := by decide +kernel

/-- Vector LG5. -/
theorem test_eor_immediate :
    after { machine 0x0200 [0x49, 0xFF] with a := 0x0F } (fun t => (t.a, t.p)) = some (0xF0, 0xA0) := by decide +kernel

/-- Vector LG8. -/
theorem test_bit_sets_z_n_v :
    after ({ machine 0x0200 [0x24, 0x40] with a := 0x01 } |> poke [(0x0040, 0xC0)]) (fun t => (t.p, t.countdown + 1)) = some (0xE2, 3) := by decide +kernel

/-- Vector LG9. -/
theorem test_bit_without_n :
    after ({ machine 0x0200 [0x24, 0x40] with a := 0x40, p := 0xE2 } |> poke [(0x0040, 0x40)]) (fun t => (t.p, t.countdown + 1)) = some (0x60, 3) := by decide +kernel

/-- Vector LG12. -/
theorem test_cmp_less :
    after { machine 0x0200 [0xC9, 0x20] with a := 0x10 } (fun t => (t.p, t.countdown + 1)) = some (0xA0, 2) := by decide +kernel

/-- Vector LG14. -/
theorem test_cmp_unsigned :
    after { machine 0x0200 [0xC9, 0x01] with a := 0x80 } (fun t => (t.p, t.countdown + 1)) = some (0x21, 2) := by decide +kernel

/-- Vector LG16. -/
theorem test_cpx_equal :
    after { machine 0x0200 [0xE0, 0x05] with x := 0x05 } (fun t => (t.p, t.countdown + 1)) = some (0x23, 2) := by decide +kernel

/-- Vector LG17. -/
theorem test_cpx_less :
    after ({ machine 0x0200 [0xE4, 0x10] with x := 0x04 } |> poke [(0x0010, 0x05)]) (fun t => (t.p, t.countdown + 1)) = some (0xA0, 3) := by decide +kernel

/-- Vector LG18. -/
theorem test_cpy_greater :
    after { machine 0x0200 [0xC0, 0x00] with y := 0xFF } (fun t => (t.p, t.countdown + 1)) = some (0xA1, 2) := by decide +kernel

/-- Vector LG19. -/
theorem test_cpy_less :
    after ((machine 0x0200 [0xCC, 0x34, 0x12]) |> poke [(0x1234, 0x01)]) (fun t => (t.p, t.countdown + 1)) = some (0xA0, 4) := by decide +kernel

/-- Vector SH1. -/
theorem test_asl_accumulator :
    after { machine 0x0200 [0x0A] with a := 0x80 } (fun t => (t.a, t.p)) = some (0x00, 0x23) := by decide +kernel

/-- Vector SH3. -/
theorem test_asl_memory :
    after ({ machine 0x0200 [0x1E, 0xF0, 0x12] with x := 0x20 } |> poke [(0x1310, 0x01)]) (fun t => (t.read 0x1310, t.countdown + 1)) = some (0x02, 7) := by decide +kernel

/-- Vector SH4. -/
theorem test_lsr_accumulator :
    after { machine 0x0200 [0x4A] with a := 0x01, p := 0xA0 } (fun t => (t.a, t.p)) = some (0x00, 0x23) := by decide +kernel

/-- Vector SH5. -/
theorem test_lsr_memory :
    after ((machine 0x0200 [0x46, 0x10]) |> poke [(0x0010, 0xFE)]) (fun t => (t.read 0x0010, t.countdown + 1)) = some (0x7F, 5) := by decide +kernel

/-- Vector SH6. -/
theorem test_rol_accumulator :
    after { machine 0x0200 [0x2A] with a := 0x80, p := 0x21 } (fun t => (t.a, t.countdown + 1)) = some (0x01, 2) := by decide +kernel

/-- Vector SH7. -/
theorem test_rol_no_carry :
    after { machine 0x0200 [0x2A] with a := 0x40 } (fun t => (t.a, t.p)) = some (0x80, 0xA0) := by decide +kernel

/-- Vector SH8. -/
theorem test_ror_accumulator :
    after { machine 0x0200 [0x6A] with a := 0x01, p := 0x21 } (fun t => (t.a, t.p)) = some (0x80, 0xA1) := by decide +kernel

/-- Vector SH9. -/
theorem test_ror_memory :
    after ((machine 0x0200 [0x6E, 0x34, 0x12]) |> poke [(0x1234, 0x02)]) (fun t => (t.read 0x1234, t.countdown + 1)) = some (0x01, 6) := by decide +kernel

/-- Vector SH10. -/
theorem test_inc_wraps :
    after ((machine 0x0200 [0xE6, 0x10]) |> poke [(0x0010, 0xFF)]) (fun t => (t.p, t.read 0x0010)) = some (0x22, 0x00) := by decide +kernel

/-- Vector SH11. -/
theorem test_inc_negative :
    after ({ machine 0x0200 [0xFE, 0xF0, 0x12] with x := 0x20 } |> poke [(0x1310, 0x7F)]) (fun t => (t.p, t.read 0x1310)) = some (0xA0, 0x80) := by decide +kernel

/-- Vector SH12. -/
theorem test_dec_wraps :
    after (machine 0x0200 [0xC6, 0x10]) (fun t => (t.p, t.read 0x0010)) = some (0xA0, 0xFF) := by decide +kernel

/-- Vector SH13. -/
theorem test_dec_zero_page_x_wraps :
    after ({ machine 0x0200 [0xD6, 0x10] with x := 0xF5 } |> poke [(0x0005, 0x01)]) (fun t => (t.p, t.read 0x0005)) = some (0x22, 0x00) := by decide +kernel

/-- Vector SH14. -/
theorem test_inx_wraps :
    after { machine 0x0200 [0xE8] with x := 0xFF } (fun t => (t.x, t.p)) = some (0x00, 0x22) := by decide +kernel

/-- Vector SH15. -/
theorem test_iny_negative :
    after { machine 0x0200 [0xC8] with y := 0x7F } (fun t => (t.y, t.p)) = some (0x80, 0xA0) := by decide +kernel

/-- Vector SH16. -/
theorem test_dex_wraps :
    after (machine 0x0200 [0xCA]) (fun t => (t.x, t.p)) = some (0xFF, 0xA0) := by decide +kernel

/-- Vector SH17. -/
theorem test_dey_zero :
    after { machine 0x0200 [0x88] with y := 0x01 } (fun t => (t.y, t.p)) = some (0x00, 0x22) := by decide +kernel

/-- Vector LS1. -/
theorem test_lda_zero :
    after { machine 0x0200 [0xA9, 0x00] with a := 0x55 } (fun t => (t.a, t.p)) = some (0x00, 0x22) := by decide +kernel

/-- Vector M10. -/
theorem test_lda_absolute_x_wraps :
    after ({ machine 0x0200 [0xBD, 0xFF, 0xFF] with x := 0x01 } |> poke [(0x0000, 0x66)]) (fun t => (t.a, t.countdown + 1)) = some (0x66, 5) := by decide +kernel

/-- Vector M5. -/
theorem test_ldx_zero_page_y_wraps :
    after ({ machine 0x0200 [0xB6, 0xF0] with y := 0xF0 } |> poke [(0x00E0, 0x33)]) (fun t => (t.x, t.countdown + 1)) = some (0x33, 4) := by decide +kernel

/-- Vector LS4. -/
theorem test_ldx_across_page :
    after ({ machine 0x0200 [0xBE, 0xF0, 0x12] with y := 0x10 } |> poke [(0x1300, 0x09)]) (fun t => (t.x, t.countdown + 1)) = some (0x09, 5) := by decide +kernel

/-- Vector LS5. -/
theorem test_ldy_across_page :
    after ({ machine 0x0200 [0xBC, 0xF0, 0x12] with x := 0x10 } |> poke [(0x1300, 0x80)]) (fun t => (t.y, t.p, t.countdown + 1)) = some (0x80, 0xA0, 5) := by decide +kernel

/-- Vector LS7. -/
theorem test_sta_absolute_x :
    after { machine 0x0200 [0x9D, 0xF0, 0x12] with a := 0x42, x := 0x20 } (fun t => (t.read 0x1310, t.countdown + 1)) = some (0x42, 5) := by decide +kernel

/-- Vector LS10. -/
theorem test_sta_izx :
    after ({ machine 0x0200 [0x81, 0x20] with a := 0x22, x := 0x02 } |> poke [(0x0023, 0x40)]) (fun t => (t.read 0x4000, t.countdown + 1)) = some (0x22, 6) := by decide +kernel

/-- Vector M6. -/
theorem test_stx_zero_page_y_wraps :
    after { machine 0x0200 [0x96, 0xFF] with x := 0x44, y := 0x01 } (fun t => (t.read 0x0000, t.countdown + 1)) = some (0x44, 4) := by decide +kernel

/-- Vector LS12. -/
theorem test_sty_zero_page_x :
    after { machine 0x0200 [0x94, 0x10] with x := 0x01, y := 0x44 } (fun t => (t.read 0x0011, t.countdown + 1)) = some (0x44, 4) := by decide +kernel

/-- Vector LS14. -/
theorem test_tax :
    after { machine 0x0200 [0xAA] with a := 0x80 } (fun t => (t.x, t.p)) = some (0x80, 0xA0) := by decide +kernel

/-- Vector LS15. -/
theorem test_tay_zero :
    after { machine 0x0200 [0xA8] with y := 0x12 } (fun t => (t.y, t.p)) = some (0x00, 0x22) := by decide +kernel

/-- Vector LS16. -/
theorem test_txa :
    after { machine 0x0200 [0x8A] with x := 0x7F } (fun t => (t.a, t.countdown + 1)) = some (0x7F, 2) := by decide +kernel

/-- Vector LS17. -/
theorem test_tya :
    after { machine 0x0200 [0x98] with y := 0xFF } (fun t => (t.a, t.p)) = some (0xFF, 0xA0) := by decide +kernel

/-- Vector LS18. -/
theorem test_tsx :
    after (machine 0x0200 [0xBA]) (fun t => (t.x, t.p)) = some (0xFD, 0xA0) := by decide +kernel

/-- Vector LS19. -/
theorem test_txs_no_flags :
    after { machine 0x0200 [0x9A] with p := 0xA0 } (fun t => (t.sp, t.countdown + 1, t.p)) = some (0x00, 2, 0xA0) := by decide +kernel

/-- Vector ST1. -/
theorem test_pha :
    after { machine 0x0200 [0x48] with a := 0x99 } (fun t => (t.sp, t.read 0x01FD)) = some (0xFC, 0x99) := by decide +kernel

/-- Vector ST2. -/
theorem test_pha_wraps :
    after { machine 0x0200 [0x48] with a := 0x01, sp := 0x00 } (fun t => (t.sp, t.read 0x0100)) = some (0xFF, 0x01) := by decide +kernel

/-- Vector ST3. -/
theorem test_php :
    after (machine 0x0200 [0x08]) (fun t => (t.sp, t.read 0x01FD)) = some (0xFC, 0x30) := by decide +kernel

/-- Vector ST4. -/
theorem test_php_clears_b :
    after { machine 0x0200 [0x08] with p := 0xEF } (fun t => (t.sp, t.read 0x01FD)) = some (0xFC, 0xFF) := by decide +kernel

/-- Vector ST5. -/
theorem test_pla_zero :
    after { machine 0x0200 [0x68] with a := 0x55, sp := 0xFC } (fun t => (t.a, t.sp, t.p)) = some (0x00, 0xFD, 0x22) := by decide +kernel

/-- Vector ST6. -/
theorem test_pla_wraps :
    after ({ machine 0x0200 [0x68] with sp := 0xFF } |> poke [(0x0100, 0x80)]) (fun t => (t.a, t.sp, t.p)) = some (0x80, 0x00, 0xA0) := by decide +kernel

/-- Vector ST7. -/
theorem test_plp_all :
    after ({ machine 0x0200 [0x28] with sp := 0xFC } |> poke [(0x01FD, 0xFF)]) (fun t => (t.sp, t.p)) = some (0xFD, 0xFF) := by decide +kernel

/-- Vector ST8. -/
theorem test_plp_forces_u :
    after { machine 0x0200 [0x28] with sp := 0xFC, p := 0xFF } (fun t => (t.sp, t.p)) = some (0xFD, 0x20) := by decide +kernel

/-- Vector ST9. -/
theorem test_clc :
    after { machine 0x0200 [0x18] with p := 0xFF } (fun t => (t.p, t.countdown + 1)) = some (0xFE, 2) := by decide +kernel

/-- Vector ST10. -/
theorem test_sec :
    after (machine 0x0200 [0x38]) (fun t => (t.p, t.countdown + 1)) = some (0x21, 2) := by decide +kernel

/-- Vector ST11. -/
theorem test_cld :
    after { machine 0x0200 [0xD8] with p := 0x28 } (fun t => (t.p, t.countdown + 1)) = some (0x20, 2) := by decide +kernel

/-- Vector ST12. -/
theorem test_sed :
    after (machine 0x0200 [0xF8]) (fun t => (t.p, t.countdown + 1)) = some (0x28, 2) := by decide +kernel

/-- Vector ST13. -/
theorem test_cli :
    after { machine 0x0200 [0x58] with p := 0x24 } (fun t => (t.p, t.countdown + 1)) = some (0x20, 2) := by decide +kernel

/-- Vector ST14. -/
theorem test_sei :
    after (machine 0x0200 [0x78]) (fun t => (t.p, t.countdown + 1)) = some (0x24, 2) := by decide +kernel

/-- Vector ST15. -/
theorem test_clv :
    after { machine 0x0200 [0xB8] with p := 0x60 } (fun t => (t.p, t.countdown + 1)) = some (0x20, 2) := by decide +kernel

/-- Vector CT1. -/
theorem test_bpl_taken :
    after (machine 0x0200 [0x10, 0x04]) (fun t => (t.pc, t.countdown + 1)) = some (0x0206, 3) := by decide +kernel

/-- Vector CT2. -/
theorem test_bpl_not_taken :
    after { machine 0x0200 [0x10, 0x04] with p := 0xA0 } (fun t => (t.countdown + 1)) = some (2) := by decide +kernel

/-- Vector CT3. -/
theorem test_bmi_taken :
    after { machine 0x0200 [0x30, 0x04] with p := 0xA0 } (fun t => (t.pc, t.countdown + 1)) = some (0x0206, 3) := by decide +kernel

/-- Vector CT4. -/
theorem test_bvc_taken :
    after (machine 0x0200 [0x50, 0x04]) (fun t => (t.pc, t.countdown + 1)) = some (0x0206, 3) := by decide +kernel

/-- Vector CT5. -/
theorem test_bvs_not_taken :
    after (machine 0x0200 [0x70, 0x04]) (fun t => (t.countdown + 1)) = some (2) := by decide +kernel

/-- Vector CT6. -/
theorem test_bcc_back_across_page :
    after (machine 0x0200 [0x90, 0xF0]) (fun t => (t.pc, t.countdown + 1)) = some (0x01F2, 4) := by decide +kernel

/-- Vector CT7. -/
theorem test_bcs_across_page :
    after { machine 0x02F0 [0xB0, 0x10] with p := 0x21 } (fun t => (t.pc, t.countdown + 1)) = some (0x0302, 4) := by decide +kernel

/-- Vector M7. -/
theorem test_bne_most_negative :
    after (machine 0x0200 [0xD0, 0x80]) (fun t => (t.pc, t.countdown + 1)) = some (0x0182, 4) := by decide +kernel

/-- Vector CT8. -/
theorem test_bne_to_the_next_page :
    after (machine 0x02FE [0xD0, 0x00]) (fun t => (t.countdown + 1)) = some (3) := by decide +kernel

/-- Vector CT9. -/
theorem test_beq_to_itself :
    after { machine 0x0200 [0xF0, 0xFE] with p := 0x22 } (fun t => (t.pc, t.countdown + 1)) = some (0x0200, 3) := by decide +kernel

/-- Vector CT10. -/
theorem test_beq_back_across_page :
    after { machine 0x0300 [0xF0, 0xFD] with p := 0x22 } (fun t => (t.pc, t.countdown + 1)) = some (0x02FF, 4) := by decide +kernel

/-- Vector M12. -/
theorem test_jmp_indirect :
    after ((machine 0x0200 [0x6C, 0x34, 0x12]) |> poke [(0x1234, 0x78), (0x1235, 0x56)]) (fun t => (t.pc, t.countdown + 1)) = some (0x5678, 5) := by decide +kernel

/-- Vector M13. -/
theorem test_jmp_indirect_page_end :
    after ((machine 0x0200 [0x6C, 0xFF, 0x12]) |> poke [(0x1200, 0x9A), (0x12FF, 0x78), (0x1300, 0x56)]) (fun t => (t.pc, t.countdown + 1)) = some (0x9A78, 5) := by decide +kernel

/-- Vector CT13. -/
theorem test_jsr :
    after (machine 0x0200 [0x20, 0x34, 0x12]) (fun t => (t.sp, t.pc, t.read 0x01FD, t.read 0x01FC)) = some (0xFB, 0x1234, 0x02, 0x02) := by decide +kernel

/-- Vector CT14. -/
theorem test_jsr_across_page :
    after (machine 0x02FE [0x20, 0x34, 0x12]) (fun t => (t.sp, t.pc, t.read 0x01FD, t.read 0x01FC)) = some (0xFB, 0x1234, 0x03, 0x00) := by decide +kernel

/-- Vector CT15. -/
theorem test_rts :
    after ({ machine 0x0200 [0x60] with sp := 0xFB } |> poke [(0x01FC, 0x02), (0x01FD, 0x02)]) (fun t => (t.sp, t.pc)) = some (0xFD, 0x0203) := by decide +kernel

/-- Vector CT16. -/
theorem test_rts_wraps :
    after ({ machine 0x0200 [0x60] with sp := 0xFB } |> poke [(0x01FC, 0xFF), (0x01FD, 0xFF)]) (fun t => (t.sp, t.pc)) = some (0xFD, 0x0000) := by decide +kernel

/-- Vector CT17. -/
theorem test_rti_all :
    after ({ machine 0x0200 [0x40] with sp := 0xFA } |> poke [(0x01FB, 0xFF), (0x01FC, 0x34), (0x01FD, 0x12)]) (fun t => (t.sp, t.p, t.pc)) = some (0xFD, 0xEF, 0x1234) := by decide +kernel

/-- Vector CT18. -/
theorem test_rti_forces_u :
    after ({ machine 0x0200 [0x40] with sp := 0xFA } |> poke [(0x01FB, 0x24), (0x01FD, 0x80)]) (fun t => (t.sp, t.p, t.pc)) = some (0xFD, 0x24, 0x8000) := by decide +kernel

/-- Vector CT19. -/
theorem test_brk :
    after ((machine 0x0300 [0x00]) |> poke [(0xFFFF, 0x04)]) (fun t => (t.sp, t.p, t.pc, t.read 0x01FD, t.read 0x01FC, t.read 0x01FB)) = some (0xFA, 0x24, 0x0400, 0x03, 0x02, 0x34) := by decide +kernel

/-- Vector CT20. -/
theorem test_brk_with_flags :
    after ({ machine 0x0300 [0x00] with p := 0xE3 } |> poke [(0xFFFF, 0x04)]) (fun t => (t.sp, t.p, t.pc, t.read 0x01FD, t.read 0x01FC, t.read 0x01FB)) = some (0xFA, 0xE7, 0x0400, 0x03, 0x02, 0xF7) := by decide +kernel

/-- Vector CT22. -/
theorem test_nop_across_page :
    after { machine 0x0200 [0x1C, 0xF0, 0x12] with x := 0x20 } (fun t => (t.countdown + 1)) = some (5) := by decide +kernel

/-- Vector CT25. -/
theorem test_nop_9c_never_pays :
    after { machine 0x0200 [0x9C, 0xF0, 0x12] with x := 0x20 } (fun t => (t.countdown + 1)) = some (5) := by decide +kernel

/-- Vector CT27. -/
theorem test_unused_02 :
    after (machine 0x0200 [0x02]) (fun t => (t.countdown + 1)) = some (2) := by decide +kernel

/-- Vector CT28. -/
theorem test_unused_03 :
    after { machine 0x0200 [0x03] with a := 0x12, p := 0xE3 } (fun t => (t.countdown + 1, t.p)) = some (8, 0xE3) := by decide +kernel

/-! ### Host calls -/

/-- The start state of the interrupt vectors of 95_test_vectors.md. -/
def interruptible (p : Byte) : State := { machine 0x8123 [] with p := p } |> poke [(0xFFFB, 0xA0), (0xFFFF, 0x90)]

/-- Vector IN1. -/
theorem test_irq_taken :
    afterCalls [.irq] (interruptible 0x20) (fun t => (t.read 0x01FD, t.read 0x01FC, t.read 0x01FB, t.pc, t.countdown)) =
      some (0x81, 0x23, 0x24, 0x9000, 7) := by decide +kernel

/-- Vector IN2. -/
theorem test_irq_masked : afterCalls [.irq] (interruptible 0x24) (fun t => t) = some (interruptible 0x24) := by decide +kernel

/-- Vector IN4. -/
theorem test_nmi_flags : afterCalls [.nmi] (interruptible 0xDB) (fun t => (t.read 0x01FB, t.p, t.countdown)) = some (0xEF, 0xEF, 8) := by
  decide +kernel

/-- Vector IN6. -/
theorem test_irq_then_nmi :
    afterCalls [.irq, .nmi] (interruptible 0x20) (fun t => (t.read 0x01FA, t.read 0x01F8, t.sp, t.pc)) =
      some (0x90, 0x24, 0xF7, 0xA000) := by decide +kernel

/-- Vector S1. -/
theorem test_reset_vector :
    afterCalls [.reset] (machine 0x0000 [] |> poke [(0xFFFC, 0x20), (0xFFFD, 0x04)]) (fun t => (t.pc, t.sp, t.p, t.countdown)) =
      some (0x0420, 0xFD, 0x20, 8) := by decide +kernel

/-- Vector RS2: a reset in the middle of an instruction drops its ticks. -/
theorem test_reset_mid_instruction :
    afterCalls [.clock, .reset] (machine 0x0200 [0xAD, 0x34, 0x12] |> poke [(0xFFFD, 0x03)]) (fun t => (t.countdown, t.pc)) =
      some (8, 0x0300) := by decide +kernel

/-- Vector M13's bus reads: the opcode, its operand bytes, and the pointer with the page wrap. -/
theorem test_access_order :
    (machine 0x0200 [0x6C, 0xFF, 0x12] |> poke [(0x12FF, 0x78), (0x1200, 0x9A)]).startAccesses (.jmp (.ind 0x12FF)) =
      [.read 0x0200 0x6C, .read 0x0201 0xFF, .read 0x0202 0x12, .read 0x12FF 0x78, .read 0x1200 0x9A] := by decide +kernel

/-! ### A host-supplied pair on the bus (R8): what it returns is free, what it is called with is not -/

/-- A core on a pair that nobody has called, at PC. -/
def hosted (pc : Addr) : State := { State.reset with pc := pc, countdown := 0, bus := .host 3 [] }

/-- R69, R243: STA makes its two operand reads and one write, no read of its target. -/
theorem test_host_store :
    (stateOf (exec (.sta (.abs 0x4000)) (hosted 0x0201))).bus =
      let r1 := BusAccess.read 0x0201 (Config.hostReply 3 [] 0x0201)
      let r2 := BusAccess.read 0x0202 (Config.hostReply 3 [r1] 0x0202)
      .host 3 [.write 0x4000 0x00, r2, r1] := rfl

/-- R240: LDA takes what the pair returns after the operand's read. -/
theorem test_host_load :
    (stateOf (exec (.lda (.zp0 0x10)) (hosted 0x0201))).a =
      Config.hostReply 3 [.read 0x0201 (Config.hostReply 3 [] 0x0201)] 0x0010 := rfl

/-- R131, R145, R334: an immediate that no `fetch()` reads is not read. -/
theorem test_host_nop_immediate : (stateOf (exec (.nop 0x80 (.imm 0x12)) (hosted 0x0201))).bus = .host 3 [] := rfl

/-- R410: `reset()` makes two reads. -/
theorem test_host_reset :
    (stateOf (call .reset (hosted 0x0200))).bus =
      let r1 := BusAccess.read 0xFFFC (Config.hostReply 3 [] 0xFFFC)
      .host 3 [.read 0xFFFD (Config.hostReply 3 [r1] 0xFFFD), r1] := rfl

/-- R62: the RAM under a parameter keeps its contents through `connect_bus` and `reset()`. -/
theorem test_reset_with :
    (State.resetWith { defaultParams with bus := .ram [(0xFFFC, 0x20), (0xFFFD, 0x04)] }).pc = 0x0420 := by decide +kernel

/-! ### Witnesses: states and operands that meet the hypotheses of the statements -/

theorem witness_DecodeEncodeRoundTrip :
    (Instr.jsr 0x9000).wf defaultParams = true ∧ (Instr.brk (.imm 0x01)).wf ⟨.imm, .implied, .refuse, .ram []⟩ = true := by decide

theorem witness_DecodedBytesAreTheEncoding : decode defaultParams [0x6C, 0xFF, 0x02, 0xEA] = .ok (.jmp (.ind 0x02FF), [0xEA]) := rfl

theorem witness_EveryOpcodeDecodes :
    (defaultParams.illegal = .nop ∧ (0x02 : Byte) ∈ unusedRows) ∧
    ((0x00 : Byte) ∉ unusedRows) ∧ (⟨.imp, .hardware, .refuse, .ram []⟩ : Params).illegal = .refuse ∧ (0xFF : Byte) ∈ unusedRows := by decide

theorem witness_OpcodeAloneFixesLength :
    decode ⟨.imp, .implied, .nop, .ram []⟩ [0x1C, 0xEA, 0xEA] = .ok (.nop 0x1C .imp, [0xEA, 0xEA]) ∧ ((0x1C : Byte), Mode.abx) ∈ unofficialNops := by
  exact ⟨rfl, by decide⟩

/-- Under the defaults, an instruction at the top of memory, its operand at address 0 (vector M21). -/
theorem witness_StepRunsDecodedInstruction :
    let s := machine 0xFFFF [0xA9, 0x01]
    s.boot = .live ∧ s.countdown = 0 ∧ (Instr.lda (.imm 0x01)).wf defaultParams = true ∧ InstrAt (.lda (.imm 0x01)) s := by
  exact ⟨rfl, rfl, by decide, by unfold InstrAt; decide +kernel⟩

/-- Under other settings of R8: a BRK with its signature byte, and a NOP row of one byte. -/
theorem witness_StepUnderOtherParameters :
    let p : Params := ⟨.imm, .implied, .refuse, .ram []⟩
    let s := machine 0xFFFF [0x00, 0x12]
    let n := machine 0x0200 [0x1C]
    s.boot = .live ∧ s.countdown = 0 ∧ (Instr.brk (.imm 0x12)).wf p = true ∧ InstrAt (.brk (.imm 0x12)) s ∧
      n.boot = .live ∧ n.countdown = 0 ∧ (Instr.nop 0x1C .imp).wf p = true ∧ InstrAt (.nop 0x1C .imp) n := by
  exact ⟨rfl, rfl, by decide, by unfold InstrAt; decide +kernel, rfl, rfl, by decide, by unfold InstrAt; decide +kernel⟩

theorem witness_IdleTickOnlyCounts : State.reset.boot = .live ∧ State.reset.countdown ≠ 0 := by decide

theorem witness_LiveCoreNeverStops : (machine 0x0200 [0x02]).boot = .live := rfl

theorem witness_UnusedRowsFollowThePolicy :
    let s := machine 0x0200 [0x02]
    s.boot = .live ∧ s.countdown = 0 ∧ s.read s.pc ∈ unusedRows ∧
      (machine 0x0200 [0xEA]).read 0x0200 ∉ unusedRows := by decide +kernel

theorem witness_NoCallBeforeBusAndReset :
    let s := { State.reset with boot := .noBus }
    let t := { State.reset with boot := .noReset }
    s.boot = .noBus ∧ (∀ b, HostCall.reset ≠ .connectBus b) ∧ t.boot = .noReset ∧ HostCall.irq ∈ [HostCall.clock, .irq, .nmi] := by
  exact ⟨rfl, fun _ => nofun, rfl, by decide⟩

theorem witness_StepKeepsInvariant :
    (machine 0x0200 [0x08]).Inv ∧ step (machine 0x0200 [0x08]) = .next (stateOf (step (machine 0x0200 [0x08]))) :=
  ⟨⟨by decide +kernel, by decide +kernel, by decide +kernel, by decide +kernel⟩, next_stateOf (by decide +kernel)⟩

theorem witness_EveryHostScheduleIsSafe :
    State.reset.Inv ∧ ∀ c ∈ [HostCall.clock, .irq, .connectBus (.ram [(0x10, 0x01)]), .connectBus (.host 7 []), .nmi, .reset, .hostRead 0x0200, .hostWrite 0x0200 0xEA], c.ok = true :=
  ⟨⟨by decide, by decide, by decide, by decide⟩, by decide⟩

theorem witness_UnusedFlagReadsAsOne :
    call .clock (interruptible 0x00) = .next (stateOf (call .clock (interruptible 0x00))) ∧ (interruptible 0x00).countdown = 0 ∧
    call .nmi (interruptible 0x00) = .next (stateOf (call .nmi (interruptible 0x00))) ∧
    call .irq (interruptible 0x00) = .next (stateOf (call .irq (interruptible 0x00))) ∧ (interruptible 0x00).flag .i = false ∧
    (interruptible 0x20).flag .u = true :=
  ⟨next_stateOf (by decide +kernel), by decide +kernel, next_stateOf (by decide +kernel), next_stateOf (by decide +kernel),
    by decide +kernel, by decide +kernel⟩

theorem witness_CountdownNeverUnderflows :
    step State.reset = .next (stateOf (step State.reset)) ∧ State.reset.countdown ≠ 0 ∧
    step (machine 0x0200 [0xEA]) = .next (stateOf (step (machine 0x0200 [0xEA]))) ∧ (machine 0x0200 [0xEA]).countdown = 0 :=
  ⟨next_stateOf (by decide +kernel), by decide, next_stateOf (by decide +kernel), by decide +kernel⟩

/-- A crossing that is paid, a crossing that is not (0x9C), and a branch taken across a page. -/
theorem witness_InstructionTicks :
    let s := { machine 0x02FD [] with x := 0x20 }
    (Instr.lda (.abx 0x12F0)).wf defaultParams = true ∧ (Instr.lda (.abx 0x12F0)).opcode = some 0xBD ∧
    s.crosses (.abx 0x12F0) = true ∧ (0xBD : Byte) ∈ pageCrossRows ∧
    (Instr.nop 0x9C (.abx 0x12F0)).wf defaultParams = true ∧ (Instr.nop 0x9C (.abx 0x12F0)).opcode = some 0x9C ∧
    (0x9C : Byte) ∉ pageCrossRows ∧
    (Instr.bne 0x04).wf defaultParams = true ∧ (Instr.bne 0x04).opcode = some 0xD0 ∧ branchTaken (.bne 0x04) s = true := by
  decide +kernel

/-- BCC at the level of its operation: the latch values of the source's own scenario (R325). -/
theorem test_branch_operation :
    let t := ({ machine 0x1111 [] with addrRel := 0x1100, countdown := 2 }).branch true
    (t.pc, t.countdown) = (0x2211, 4) := by decide +kernel

/-- IND at the end of a page and of memory, from the rule's own formula (R139). -/
theorem test_indirect_boundaries :
    ((machine 0 [] |> poke [(0xFFFF, 0x34), (0xFF00, 0x12)]).target (.ind 0xFFFF), (machine 0 [] |> poke [(0x02FE, 0x34), (0x02FF, 0x12)]).target (.ind 0x02FE)) =
      (0x1234, 0x1234) := by decide +kernel

/-- IZX and IZY at the end of page 0 (vectors M15, M18). -/
theorem test_zero_page_pointer_boundaries :
    let s := machine 0 [] |> poke [(0x00FF, 0x10), (0x0000, 0x40)]
    (s.target (.izx 0xFF), s.target (.izy 0xFF)) = (0x4010, 0x4010) := by decide +kernel

theorem witness_FetchReadsTheAddressedByte :
    OperandAt (.imm 0x5C) (machine 0x0201 [0x5C]) ∧ OperandAt .imp (machine 0x0201 []) ∧ OperandAt (.abs 0x1234) (machine 0xFFFF [0x34, 0x12]) := by
  unfold OperandAt
  decide +kernel

/-- The same M from an immediate and from memory, PC past the SBC opcode. In `v` the ADC has carried out, so both cases hold;
in `w` it has not. -/
theorem witness_AdcThenSbcLaw :
    let s := { machine 0x0201 [] with a := 0xFF } |> poke [(0x0010, 0x01)]
    let t := stateOf (exec (.adc (.imm 0x01)) s)
    let v := t.setPc (t.pc + 1)
    let s' := { machine 0x0201 [] with a := 0x10 } |> poke [(0x0010, 0x01)]
    let t' := stateOf (exec (.adc (.imm 0x01)) s')
    let w := t'.setPc (t'.pc + 1)
    (exec (.adc (.imm 0x01)) s = .next t ∧ v.a = t.a ∧ v.operandValue (.zp0 0x10) = s.operandValue (.imm 0x01) ∧
      v.flag .c = t.flag .c ∧ s.flag .c = false ∧ v.flag .c = true) ∧
    exec (.adc (.imm 0x01)) s' = .next t' ∧ w.a = t'.a ∧ w.operandValue (.zp0 0x10) = s'.operandValue (.imm 0x01) ∧
      w.flag .c = t'.flag .c ∧ w.flag .c = false :=
  ⟨⟨exec_stateOf _ _, by decide +kernel, by decide +kernel, by decide +kernel, by decide +kernel, by decide +kernel⟩,
    exec_stateOf _ _, by decide +kernel, by decide +kernel, by decide +kernel, by decide +kernel⟩

theorem witness_DecimalFlagHasNoEffect :
    (Instr.adc (.imm 0x01)).op ∉ [Op.cld, .sed, .plp, .rti, .php, .brk] ∧
      exec (.adc (.imm 0x01)) (machine 0x0201 []) = .next (stateOf (exec (.adc (.imm 0x01)) (machine 0x0201 []))) :=
  ⟨by decide, exec_stateOf _ _⟩

/-- The operand forms of a shift: accumulator and memory. -/
theorem witness_ShiftForms : Operand.imp = .imp ∧ Operand.zp0 0x10 ≠ .imp := by decide

/-- An operand for each listed mode: the lookup of `Opcodes` succeeds, and for a mode that is not listed it does not. -/
theorem witness_Opcodes :
    [(Mode.zp0, (0x24 : Byte)), (.abs, 0x2C)].lookup (Operand.abs 0x1234).mode = some 0x2C ∧
      [(Mode.zp0, (0x24 : Byte)), (.abs, 0x2C)].lookup (Operand.imm 0x12).mode = none := by decide

theorem witness_PullAfterPushGivesItBack :
    let s := { machine 0x0201 [] with a := 0x99, sp := 0x00 }
    let t := stateOf (exec .pha s)
    let u := t.setA 0x55
    OnRam s ∧ exec .pha s = .next t ∧ u.sp = t.sp ∧ u.read (stackAddr s.sp) = t.read (stackAddr s.sp) ∧
      exec .php s = .next (stateOf (exec .php s)) :=
  ⟨⟨_, rfl⟩, exec_stateOf _ _, rfl, rfl, exec_stateOf _ _⟩

theorem witness_StackStaysInPageOne :
    (Instr.brk .imp).op ∈ [Op.pha, .php, .jsr, .brk] ∧
    exec (.brk .imp) (machine 0x0201 []) = .next (stateOf (exec (.brk .imp) (machine 0x0201 []))) ∧
    call .irq (interruptible 0x20) = .next (stateOf (call .irq (interruptible 0x20))) ∧ OnRam (interruptible 0x20) ∧
    (0x00FF : Addr).toNat < 0x0100 ∧ 0x01FF < (0x0200 : Addr).toNat :=
  ⟨by decide, exec_stateOf _ _, next_stateOf (by decide +kernel), ⟨_, rfl⟩, by decide, by decide⟩

/-- Each branch condition is met by a state and missed by another. -/
theorem witness_BranchInstructions :
    let s := { machine 0x0201 [] with p := 0x20 }
    let t := { machine 0x0201 [] with p := 0xE3 }
    (!s.flag .n) = true ∧ (!t.flag .n) = false ∧ t.flag .n = true ∧ s.flag .n = false ∧ t.flag .v = true ∧ s.flag .v = false ∧
      t.flag .c = true ∧ s.flag .c = false ∧ t.flag .z = true ∧ s.flag .z = false := by decide +kernel

theorem witness_RtsReturnsAfterJsr :
    let s := machine 0x02FF []
    let t := stateOf (exec (.jsr 0x1234) s)
    let u := t.setPc 0x4000
    OnRam s ∧ exec (.jsr 0x1234) s = .next t ∧ OnRam u ∧ u.sp = t.sp ∧ u.read (stackAddr s.sp) = t.read (stackAddr s.sp) ∧
      u.read (stackAddr (s.sp - 1)) = t.read (stackAddr (s.sp - 1)) :=
  ⟨⟨_, rfl⟩, exec_stateOf _ _, ⟨_, rfl⟩, rfl, rfl, rfl⟩

theorem witness_BrkTakesTheInterrupt :
    defaultParams.brkMode = .imp ∧ (⟨.imm, .hardware, .nop, .ram []⟩ : Params).brkMode = .imm := by decide

theorem witness_BaseCyclesOfTheRows :
    (Instr.jmp (.ind 0x12FF)).wf defaultParams = true ∧ (Instr.jmp (.ind 0x12FF)).opcode = some 0x6C ∧ (0x6C : Byte) ∉ unusedRows := by
  decide

theorem witness_NopAndUnusedRows :
    ((0x9C : Byte), Mode.abx) ∈ unofficialNops ∧ (0x02 : Byte) ∈ unusedRows ∧ ∃ e ∈ unusedBaseCycles, (0xFF : Byte) ∈ e.2 := by decide

theorem witness_IrqIsDroppedWhileMasked : (interruptible 0x24).boot = .live ∧ (interruptible 0x24).flag .i = true := by decide +kernel

theorem witness_InterruptEntrySequence : (interruptible 0x20).boot = .live ∧ (interruptible 0x20).flag .i = false := by decide +kernel

/-- The handler's only effect is on A: its frame is unmodified. -/
theorem witness_RtiReturnsFromAnInterrupt :
    let s := interruptible 0x20
    let t := stateOf (call .irq s)
    let u := t.setA 0x55
    OnRam s ∧ s.flag .i = false ∧ call .irq s = .next t ∧ OnRam u ∧ u.sp = t.sp ∧
      (∀ a ∈ [stackAddr s.sp, stackAddr (s.sp - 1), stackAddr (s.sp - 2)], u.read a = t.read a) ∧
      call .nmi s = .next (stateOf (call .nmi s)) :=
  ⟨⟨_, rfl⟩, by decide +kernel, next_stateOf (by decide +kernel), ⟨_, rfl⟩, rfl, fun _ _ => rfl, next_stateOf (by decide +kernel)⟩

theorem witness_HostOrderIsThePriority : (interruptible 0x20).boot = .live ∧ (interruptible 0x20).flag .i = false := by decide +kernel

theorem witness_ConnectBusReplacesTheBus : (hosted 0x0200).boot ≠ .noBus ∧ (hosted 0x0200).bus = .host 3 [] := ⟨by decide, rfl⟩

theorem witness_ReadGivesTheLastWrite : (interruptible 0x20).boot ≠ .noBus ∧ ∃ m, (interruptible 0x20).bus = .ram m :=
  ⟨by decide +kernel, _, rfl⟩

theorem witness_ResetSequence : (interruptible 0x20).boot ≠ .noBus := by decide +kernel

theorem witness_ResetStateMeetsTheInvariant :
    let s := { State.reset with a := 0x55, boot := .noReset }
    s.boot ≠ .noBus ∧ s.bus = .ram [] ∧ s.clockCount = 0 := by decide

theorem witness_LatchesAreNeverReadAcrossInstructions :
    let s := machine 0x0200 [0xA5, 0x10]
    SameButLatches s { s with fetched := 0x55, temp := 0x1234, addrAbs := 0x4321, addrRel := 0xFF80, opcode := 0x77 } ∧
      step s = .next (stateOf (step s)) :=
  ⟨⟨rfl, rfl, rfl, rfl, rfl, rfl, rfl, rfl, rfl, rfl⟩, next_stateOf (by decide +kernel)⟩

theorem witness_AccessSequenceAccountsForMemory :
    let s := machine 0x0201 [0xFF, 0x12]
    let r := machine 0x0200 [0xFE, 0xFF, 0x12]
    (Instr.inc (.abx 0x12FF)).wf defaultParams = true ∧ OperandAt (.abx 0x12FF) s ∧
      exec (.inc (.abx 0x12FF)) s = .next (stateOf (exec (.inc (.abx 0x12FF)) s)) ∧
      r.boot = .live ∧ r.countdown = 0 ∧ InstrAt (.inc (.abx 0x12FF)) r ∧ step r = .next (stateOf (step r)) := by
  exact ⟨by decide, by unfold OperandAt; decide +kernel, exec_stateOf _ _, by decide +kernel, by decide +kernel,
    by unfold InstrAt; decide +kernel, next_stateOf (by decide +kernel)⟩

/-- A list that replays on a host-supplied pair: a read of what the pair returns, and a write. -/
theorem witness_AccessReplayOnPair :
    let e := BusAccess.read 0x0010 (Config.hostReply 3 [] 0x0010)
    replay [e, .write 0x0020 0x01] (.host 3 []) = some (.host 3 [.write 0x0020 0x01, e]) := by
  simp [replay, Bus.read, Bus.afterRead, Bus.write]

/-- The operations of each clause of the access statement. -/
theorem witness_AccessClauses :
    (Instr.asl .imp).op ∈ fetchingOps ∧ (Instr.sta (.abs 0x1234)).op ∉ fetchingOps ++ [.pla, .plp, .rts, .rti, .brk] ∧
      Instr.pla.op ∈ [Op.pla, .plp] ∧ Instr.rts.op = .rts ∧ Instr.rti.op = .rti := by decide

/-- The written bytes wrap at the top of memory. -/
theorem witness_WrittenCodeIsFetched :
    let s := machine 0xFFFF []
    OnRam s ∧ s.boot = .live ∧ (Instr.jmp (.ind 0x12FF)).wf defaultParams = true := ⟨⟨_, rfl⟩, by decide +kernel, by decide⟩

end Sys2Proof.Tests
end

section
/-! What an operation leaves of the rest of the machine: the canonical form of the RAM, the boot stage and the countdown
(10_state.md R35, R39; 20_memory.md R62). -/

namespace Sys2Proof.Machine

/-- From `s` to `t` the RAM stays canonical, the boot stage is kept, and the countdown gains at most `n`. -/
structure Tame (n : Nat) (s t : State) : Prop where
  memory : s.bus.wf = true → t.bus.wf = true
  boot : t.boot = s.boot
  least : s.countdown ≤ t.countdown
  most : t.countdown ≤ s.countdown + n

theorem Tame.trans {m n : Nat} {s u t : State} (h : Tame m s u) (k : Tame n u t) : Tame (n + m) s t where
  memory hs := k.memory (h.memory hs)
  boot := k.boot.trans h.boot
  least := h.least.trans k.least
  most := by have := h.most; have := k.most; omega

theorem Tame.of_memory {s t : State} (memory : s.bus.wf = true → t.bus.wf = true) (boot : t.boot = s.boot)
    (countdown : t.countdown = s.countdown) : Tame 0 s t :=
  ⟨memory, boot, countdown.ge, countdown.le⟩

/-- The case of an operation on registers, flags and latches alone. -/
theorem Tame.of_bus {s t : State} (bus : t.bus = s.bus) (boot : t.boot = s.boot) (countdown : t.countdown = s.countdown) :
    Tame 0 s t :=
  .of_memory (fun h => bus ▸ h) boot countdown

theorem Tame.write (a : Addr) (v : Byte) (s : State) : Tame 0 s (s.write a v) := .of_memory (State.wf_write a v) rfl rfl

theorem Tame.push (v : Byte) (s : State) : Tame 0 s (s.push v) := .of_memory (State.wf_push v) rfl rfl

theorem Tame.pull (s : State) : Tame 0 s s.pull := .of_memory State.wf_pull rfl rfl

theorem Tame.address (o : Operand) (s : State) : Tame 0 s (s.address o) :=
  .of_memory (State.wf_address o) (State.address_boot o s) (State.address_countdown o s)

theorem Tame.fetch (o : Operand) (s : State) : Tame 0 s (s.fetch o) :=
  .of_memory (State.wf_fetch o) (State.fetch_boot o s) (State.fetch_countdown o s)

theorem Tame.writeBack (o : Operand) (r : Byte) (s : State) : Tame 0 s (s.writeBack o r) := by
  by_cases h : o = .imp
  · subst h
    exact .of_bus rfl rfl rfl
  · rw [State.writeBack_memory r s h]
    exact .write _ _ _

theorem Tame.shiftCore (o : Operand) (c : Bool) (v : Addr) (s : State) : Tame 0 s (s.shiftCore o c v) :=
  (Tame.of_bus rfl rfl rfl : Tame 0 s (((s.setFlag .c c).setTemp v).nz (lo v))).trans (.writeBack o _ _)

theorem Tame.countMemory (v : Addr) (s : State) : Tame 0 s (s.countMemory v) :=
  .of_memory (fun h => by rw [State.countMemory_bus]; exact Bus.wf_write _ _ h) (State.countMemory_boot v s)
    (State.countMemory_countdown v s)

theorem Tame.takeInterrupt (v : Addr) (b : Bool) (s : State) : Tame 0 s (s.takeInterrupt v b) :=
  .of_memory (State.wf_takeInterrupt v b) (State.takeInterrupt_boot v b s) (State.takeInterrupt_countdown v b s)

theorem Tame.returnFromInterrupt (s : State) : Tame 0 s s.returnFromInterrupt := by
  refine .of_memory (fun h => ?_) (State.returnFromInterrupt_boot s) (State.returnFromInterrupt_countdown s)
  rw [State.returnFromInterrupt_eq]
  exact Bus.wf_afterRead _ (Bus.wf_afterRead _ (Bus.wf_afterRead _ h))

/-- A taken branch adds one cycle, or two across a page (R320). -/
theorem Tame.branch (c : Bool) (s : State) : Tame 2 s (s.branch c) := by
  refine ⟨fun h => by rwa [State.branch_bus], State.branch_boot c s, ?_, ?_⟩
  all_goals
    cases c with
    | false => simp [State.branch_false]
    | true =>
      simp only [State.branch_true]
      split <;> omega

/-- The end of an instruction adds at most the extra cycle (R123). -/
theorem Tame.finish (extra : Bool) (s : State) : Tame 1 s (s.finish extra) := by
  refine ⟨id, rfl, ?_, ?_⟩ <;> rw [State.finish_countdown] <;> split <;> omega

/-- The cycles that an operation itself may add: those of a taken branch (R320). -/
def branchCycles : Op → Nat
  | .bpl | .bmi | .bvc | .bvs | .bcc | .bcs | .bne | .beq => 2
  | _ => 0

/-- A row has at least 2 base cycles, and with those of a taken branch at most 8 (R95). -/
theorem baseCycles_bounds (b : Byte) :
    2 ≤ (tableRow b).baseCycles ∧ (tableRow b).baseCycles + branchCycles (tableRow b).op ≤ 8 := by
  revert b
  decide

/-- Every instruction runs an operation that is tame up to the cycles of a taken branch. -/
theorem exec_operation_tame (i : Instr) (s : State) :
    ∃ (hint : Bool) (f : State → State), exec i s = .next (s.runOperation i.operand hint f) ∧
      ∀ u, Tame (branchCycles i.op) u (f u) := by
  cases i
  all_goals refine ⟨_, _, rfl, fun u => ?_⟩
  case adc o | sbc _ o | and o | ora o | eor o | bit o | cmp o | cpx o | cpy o | lda o | ldx o | ldy o =>
    exact (Tame.fetch o u).trans (.of_bus (by simp) (by simp) (by simp))
  case asl o | lsr o | rol o | ror o => exact (Tame.fetch o u).trans (.shiftCore o _ _ _)
  case inc o | dec o => exact (Tame.fetch o u).trans (.countMemory _ _)
  case sta o | stx o | sty o => exact .write _ _ _
  case pha => exact .push _ _
  case php => exact (Tame.push _ u).trans (.of_bus rfl rfl rfl)
  case pla | plp => exact (Tame.pull u).trans (.of_bus (by simp) (by simp) (by simp))
  case jsr addr => exact .of_memory (State.wf_pushWord _) rfl rfl
  case rts => exact ((Tame.pull u).trans (.pull _)).trans (.of_bus rfl rfl rfl)
  case rti => exact .returnFromInterrupt _
  case brk o => exact (Tame.of_bus rfl rfl rfl : Tame 0 u (u.setPc (u.pc + 1))).trans (.takeInterrupt _ _ _)
  case bpl | bmi | bvc | bvs | bcc | bcs | bne | beq => exact .branch _ _
  -- The others write registers, flags and latches alone.
  all_goals exact .of_bus (by simp) (by simp) (by simp)

/-- Everything an instruction does to the countdown, the boot stage and the form of the RAM (R123, R320). -/
theorem exec_tame {i : Instr} {s t : State} (h : exec i s = .next t) : Tame (1 + branchCycles i.op) s t := by
  obtain ⟨hint, f, hf, ht⟩ := exec_operation_tame i s
  obtain rfl : s.runOperation i.operand hint f = t := by simpa [hf] using h
  exact ((Tame.address i.operand s).trans (ht _)).trans (.finish _ _)

/-- Every instruction ends with U set (R28, R121). -/
theorem exec_unusedFlag {i : Instr} {s t : State} (h : exec i s = .next t) : t.flag .u = true := by
  obtain ⟨hint, f, hf⟩ := exec_finishes i s
  obtain rfl : s.runOperation i.operand hint f = t := by simpa [hf] using h
  rw [State.runOperation_eq, State.finish_flag]
  rfl

end Sys2Proof.Machine
end

section
/-! What the instruction that a tick starts has to do with the opcode at PC (30_encoding.md R90, R94). -/

namespace Sys2Proof.Machine

theorem State.instructionBytes_eq_cons (p : Params) (s : State) :
    s.instructionBytes p = s.read s.pc ::
      (s.afterRead s.pc).bytesFrom (rowMode p (s.read s.pc)).operandBytes (s.pc + 1) := by
  rw [State.instructionBytes, lengthOf, Nat.add_comm]
  rfl

/-- The mode of a row is one of its operation's, under all parameters (R95, R97). -/
theorem rowMode_mem_modes (p : Params) (b : Byte) : rowMode p b ∈ (tableRow b).op.modes := by
  have hrow (k : BrkMode) (n : NopModes) : ∀ c, rowMode ⟨k, n, .nop, .ram []⟩ c ∈ (tableRow c).op.modes := by
    cases k <;> cases n <;> decide
  exact hrow p.brkMode p.nopModes b

/-- What is decoded has its operation in its operand's mode. -/
theorem modeOk_of_decode {p : Params} {bs rest : List Byte} {i : Instr} (h : decode p bs = .ok (i, rest)) :
    i.modeOk = true := by
  obtain ⟨b, tail, -, -, ho, ha⟩ := decode_cases h
  obtain ⟨hop, -⟩ := assemble_cases ha
  obtain ⟨hmode, -⟩ := takeOperand_cases ho
  rw [Instr.modeOk, List.contains_iff_mem, hop, Instr.mode, hmode]
  exact rowMode_mem_modes p b

/-- The instruction at PC has the operation of the opcode's row. -/
theorem op_of_decode_instructionBytes {p : Params} {s : State} {i : Instr} {rest : List Byte}
    (h : decode p (s.instructionBytes p) = .ok (i, rest)) : i.op = (tableRow (s.read s.pc)).op := by
  obtain ⟨b, tail, hb, -, -, ha⟩ := decode_cases h
  rw [State.instructionBytes_eq_cons] at hb
  obtain ⟨rfl, -⟩ := List.cons.inj hb
  exact (assemble_cases ha).1

end Sys2Proof.Machine
end

section
/-! The invariant, the flag U and the countdown over one step and one host call (10_state.md R28, R35, R38, R39). -/

namespace Sys2Proof.Machine

/-- The tick that starts an instruction: U is set, the RAM stays canonical, the boot stage is kept, and the countdown lies between
what the row's base cycles leave and 8. -/
theorem start_tick_facts {p : Params} {s u : State} {i : Instr} {rest : List Byte}
    (hd : decode p (s.instructionBytes p) = .ok (i, rest)) (hu : exec i s.beginInstruction = .next u) :
    u.tick.flag .u = true ∧ (s.bus.wf = true → u.tick.bus.wf = true) ∧ u.tick.boot = s.boot ∧
      (tableRow (s.read s.pc)).baseCycles ≤ u.tick.countdown + 1 ∧ u.tick.countdown ≤ 8 := by
  have ht := exec_tame hu
  have hleast := ht.least
  have hmost := ht.most
  rw [State.beginInstruction_countdown] at hleast hmost
  rw [op_of_decode_instructionBytes hd] at hmost
  obtain ⟨-, hrow⟩ := baseCycles_bounds (s.read s.pc)
  refine ⟨(State.tick_flag u .u).trans (exec_unusedFlag hu), fun h => ht.memory (Bus.wf_afterRead _ h), ht.boot, ?_, ?_⟩ <;>
    rw [State.tick_countdown] <;> omega

/-- Settles O13: an idle tick only counts down; an instruction ends with U set and adds at most what `baseCycles_bounds` leaves. -/
theorem stepKeepsInvariant : Obligations.StepKeepsInvariant := by
  intro s t hs h
  obtain ⟨-, ⟨-, rfl⟩ | ⟨-, i, rest, u, hd, hu, rfl⟩⟩ := clockWith_cases h
  · exact ⟨hs.memory, hs.unusedFlag, (Nat.sub_le _ _).trans hs.countdown, hs.live⟩
  · obtain ⟨hflag, hmem, hboot, -, hcount⟩ := start_tick_facts hd hu
    exact ⟨hmem hs.memory, hflag, hcount, hboot.trans hs.live⟩

/-- Settles O16: the bounds are read off the table; a tick takes one, and an instruction takes none away before it. -/
theorem countdownNeverUnderflows : Obligations.CountdownNeverUnderflows := by
  refine ⟨fun b => ?_, fun s t h => ?_⟩
  · obtain ⟨hleast, hmost⟩ := baseCycles_bounds b
    exact ⟨hleast, (Nat.le_add_right _ _).trans hmost⟩
  obtain ⟨-, ⟨hc, rfl⟩ | ⟨hc, i, rest, u, hd, hu, rfl⟩⟩ := clockWith_cases h
  · exact ⟨fun _ => Nat.succ_pred hc, fun h0 => absurd h0 hc⟩
  · obtain ⟨-, -, -, hbase, -⟩ := start_tick_facts hd hu
    exact ⟨fun h0 => absurd hc h0, fun _ => hbase⟩

/-- A tick keeps U, and sets it where it starts an instruction. -/
theorem step_unusedFlag {s t : State} (h : step s = .next t) (hs : s.flag .u = true ∨ s.countdown = 0) :
    t.flag .u = true := by
  obtain ⟨-, ⟨hc, rfl⟩ | ⟨-, i, rest, u, -, hu, rfl⟩⟩ := clockWith_cases h
  · exact hs.resolve_right hc
  · exact (State.tick_flag u .u).trans (exec_unusedFlag hu)

theorem State.resetSequence_unusedFlag (s : State) : s.resetSequence.flag .u = true :=
  (by decide : getFlag .u 0x20 = true)

theorem State.entry_unusedFlag (v : Addr) (n : Nat) (s : State) : (s.entry v n).flag .u = true := by
  rw [State.entry_flag]
  rfl

/-- `irq()` keeps U, and sets it where it is taken. -/
theorem State.irq_unusedFlag {s : State} (hs : s.flag .u = true ∨ s.flag .i = false) : s.irq.flag .u = true := by
  cases hi : s.flag .i with
  | false =>
    rw [State.irq_taken hi]
    exact State.entry_unusedFlag _ _ _
  | true =>
    rw [State.irq_masked hi]
    exact hs.resolve_right (by simp [hi])

/-- Settles O15, call by call: an interrupt, `reset()` and the start of an instruction set U, no other call writes P. -/
theorem unusedFlagReadsAsOne : Obligations.UnusedFlagReadsAsOne := by
  intro c s t h
  obtain ⟨rfl, hstep⟩ | ⟨rfl, -, rfl⟩ | ⟨rfl, -, rfl⟩ | ⟨rfl, -, rfl⟩ | ⟨b, rfl, rfl⟩ | ⟨a, rfl, -, rfl⟩ |
    ⟨a, v, rfl, -, rfl⟩ := call_cases h
  · exact ⟨fun hu => step_unusedFlag hstep (.inl hu), fun _ hc => step_unusedFlag hstep (.inr hc), nofun, nofun⟩
  · have hu := State.resetSequence_unusedFlag s
    exact ⟨fun _ => hu, nofun, fun _ => hu, nofun⟩
  · exact ⟨fun hu => State.irq_unusedFlag (.inl hu), nofun, nofun, fun _ hi => State.irq_unusedFlag (.inr hi)⟩
  · have hu : s.nmi.flag .u = true := State.entry_unusedFlag _ _ _
    exact ⟨fun _ => hu, nofun, fun _ => hu, nofun⟩
  -- `connect_bus` and the host's own accesses.
  all_goals exact ⟨id, nofun, nofun, nofun⟩

/-- What `reset()` leaves depends on the bus and the tick count alone (R410). -/
theorem State.resetSequence_congr {s t : State} (hb : s.bus = t.bus) (hc : s.clockCount = t.clockCount) :
    s.resetSequence = t.resetSequence := by
  simp [State.resetSequence, State.readWord, State.readPair, State.read_eq, State.afterReads, hb, hc]

theorem call_reset {s : State} (h : s.boot ≠ .noBus) : call .reset s = .next s.resetSequence := by
  cases hb : s.boot with
  | noBus => exact absurd hb h
  | noReset | live => simp [call, callWith, callReset, hb]

theorem call_connectBus (b : Bus) (s : State) :
    call (.connectBus b) s = .next { s with bus := b, boot := if s.boot = .live then .live else .noReset } := by
  cases hb : s.boot <;> simp [call, callWith, callConnectBus, hb]

/-- Settles O12: the bounds are evaluated; `reset()` sets every field but the bus and the tick count. -/
theorem resetStateMeetsTheInvariant : Obligations.ResetStateMeetsTheInvariant := by
  refine ⟨⟨State.reset_wf, rfl, le_rfl, rfl⟩, State.resetWith_default, fun s hboot hbus hcount => ?_, fun p s hcount => ?_⟩
  · rw [call_reset hboot, State.reset_eq_resetSequence s hbus hcount]
  · have hreset : call .reset { s with bus := p.bus, boot := if s.boot = .live then .live else .noReset } =
        .next (State.resetWith p) := by
      rw [call_reset (by simp only; split <;> nofun)]
      exact congrArg _ (State.resetSequence_congr rfl hcount)
    simp only [runCalls, call_connectBus, hreset]

end Sys2Proof.Machine
end

section
/-! The latches (10_state.md R32): an instruction reads none that its own mode and operand read have not written before. -/

namespace Sys2Proof.Machine

open Sys2Proof.Shapes

/-- The state with every latch but the listed ones set to 0. -/
def State.keepLatches (ls : List Latch) (s : State) : State :=
  { s with
    fetched := if ls.contains .fetched then s.fetched else 0
    temp := if ls.contains .temp then s.temp else 0
    addrAbs := if ls.contains .addrAbs then s.addrAbs else 0
    addrRel := if ls.contains .addrRel then s.addrRel else 0
    opcode := 0 }

theorem sameButLatches_iff {s t : State} : SameButLatches s t ↔ s.keepLatches [] = t.keepLatches [] := by
  constructor
  · intro h
    apply State.ext <;> simp [State.keepLatches, h.a, h.x, h.y, h.sp, h.p, h.pc, h.countdown, h.clockCount, h.bus, h.boot]
  · intro h
    simp only [State.keepLatches, State.mk.injEq] at h
    obtain ⟨ha, hx, hy, hsp, hp, hpc, -, -, -, -, -, hcountdown, hclock, hbus, hboot⟩ := h
    exact ⟨ha.symm, hx.symm, hy.symm, hsp.symm, hp.symm, hpc.symm, hcountdown.symm, hclock.symm, hbus.symm, hboot.symm⟩

/-- Apart from the latches it leaves, `f` depends on no latch but the listed ones. -/
def Reads (ls : List Latch) (f : State → State) : Prop :=
  ∀ s, (f s).keepLatches [] = (f (s.keepLatches ls)).keepLatches []

/-- The evaluation of a mode sets its latch from no latch. -/
theorem State.keepLatches_address (o : Operand) (s : State) :
    (s.address o).keepLatches [modeLatch o] = ((s.keepLatches []).address o).keepLatches [modeLatch o] := by
  cases o <;> rfl

theorem State.keepLatches_crosses (o : Operand) (s : State) : (s.keepLatches []).crosses o = s.crosses o := by
  cases o <;> rfl

/-- `fetch()` reads the mode's latch alone (R145); no instruction calls it in mode REL. -/
theorem State.keepLatches_fetch {o : Operand} (ho : ∀ d, o ≠ .rel d) (s : State) :
    (s.fetch o).keepLatches [.fetched, modeLatch o] =
      ((s.keepLatches [modeLatch o]).fetch o).keepLatches [.fetched, modeLatch o] := by
  cases o with
  | rel d => exact absurd rfl (ho d)
  | imp | imm _ | zp0 _ | zpx _ | zpy _ | abs _ | abx _ | aby _ | ind _ | izx _ | izy _ => rfl

theorem Reads.comp_fetch {o : Operand} {g : State → State} (ho : ∀ d, o ≠ .rel d) (hg : Reads [.fetched, modeLatch o] g) :
    Reads [modeLatch o] fun s => g (s.fetch o) := by
  intro s
  simp only
  rw [hg (s.fetch o), State.keepLatches_fetch ho, ← hg]

theorem Reads.branch (f : Flag) (b : Bool) : Reads [.addrRel] fun s => s.branch (s.flag f == b) := by
  intro s
  have hflag : (s.keepLatches [.addrRel]).flag f = s.flag f := rfl
  simp only [hflag]
  cases s.flag f == b <;> rfl

theorem modeLatch_of_memory {o : Operand} (himp : o ≠ .imp) (hrel : ∀ d, o ≠ .rel d) : modeLatch o = .addrAbs := by
  cases o with
  | imp => exact absurd rfl himp
  | rel d => exact absurd rfl (hrel d)
  | imm _ | zp0 _ | zpx _ | zpy _ | abs _ | abx _ | aby _ | ind _ | izx _ | izy _ => rfl

/-- The write-back reads `addr_abs` in a memory mode only. -/
theorem Reads.shiftCore {o : Operand} (ho : ∀ d, o ≠ .rel d) (carryOut : State → Bool) (v : State → Addr)
    (hc : ∀ s, carryOut (s.keepLatches [.fetched, modeLatch o]) = carryOut s)
    (hv : ∀ s, v (s.keepLatches [.fetched, modeLatch o]) = v s) :
    Reads [.fetched, modeLatch o] fun s => s.shiftCore o (carryOut s) (v s) := by
  intro s
  simp only [hc, hv]
  by_cases himp : o = .imp
  · subst himp
    rfl
  · rw [modeLatch_of_memory himp ho]
    simp only [State.shiftCore, State.writeBack_memory _ _ himp]
    rfl

/-- The instruction's operation reads no latch but the one its mode has just written. -/
def LatchFree (i : Instr) : Prop :=
  ∃ (hint : Bool) (f : State → State),
    (∀ s, exec i s = .next (s.runOperation i.operand hint f)) ∧ Reads [modeLatch i.operand] f

theorem operand_ne_of_mode {i : Instr} (h : i.modeOk = true) {m : Mode} (hop : i.op.modes.contains m = false) {o : Operand}
    (ho : o.mode = m) : i.operand ≠ o := by
  rintro rfl
  rw [Instr.modeOk, Instr.mode, ho, hop] at h
  cases h

theorem operand_ne_rel {i : Instr} (h : i.modeOk = true) (hrel : i.op.modes.contains .rel = false) (d : Byte) :
    i.operand ≠ .rel d :=
  operand_ne_of_mode h hrel rfl

theorem modeLatch_eq_addrAbs {i : Instr} (h : i.modeOk = true) (hrel : i.op.modes.contains .rel = false)
    (himp : i.op.modes.contains .imp = false) : modeLatch i.operand = .addrAbs :=
  modeLatch_of_memory (operand_ne_of_mode h himp rfl) (operand_ne_rel h hrel)

/-- An instruction whose operation calls `fetch()` first. -/
theorem LatchFree.of_fetch {i : Instr} (h : i.modeOk = true) (hrel : i.op.modes.contains .rel = false) {hint : Bool}
    (g : State → State) (he : ∀ s, exec i s = .next (s.runOperation i.operand hint fun s => g (s.fetch i.operand)))
    (hg : Reads [.fetched, modeLatch i.operand] g) : LatchFree i :=
  ⟨hint, _, he, .comp_fetch (operand_ne_rel h hrel) hg⟩

/-- A shift or rotate (R200). -/
theorem LatchFree.of_shift {i : Instr} (h : i.modeOk = true) (hrel : i.op.modes.contains .rel = false) {hint : Bool}
    (carryOut : State → Bool) (v : State → Addr)
    (he : ∀ s, exec i s = .next (s.runOperation i.operand hint fun s =>
      let s := s.fetch i.operand; s.shiftCore i.operand (carryOut s) (v s)))
    (hc : ∀ s, carryOut (s.keepLatches [.fetched, modeLatch i.operand]) = carryOut s)
    (hv : ∀ s, v (s.keepLatches [.fetched, modeLatch i.operand]) = v s) : LatchFree i :=
  .of_fetch h hrel _ he (.shiftCore (operand_ne_rel h hrel) carryOut v hc hv)

/-- An increment or decrement of memory (R205, R206). -/
theorem LatchFree.of_count {i : Instr} (h : i.modeOk = true) (hrel : i.op.modes.contains .rel = false)
    (himp : i.op.modes.contains .imp = false) {hint : Bool} (v : Byte → Addr)
    (he : ∀ s, exec i s = .next (s.runOperation i.operand hint fun s =>
      let s := s.fetch i.operand; s.countMemory (v s.fetched))) : LatchFree i := by
  refine .of_fetch h hrel (fun s => s.countMemory (v s.fetched)) he ?_
  rw [modeLatch_eq_addrAbs h hrel himp]
  exact fun _ => rfl

/-- Every instruction whose operation has a row in its mode. Where no unlisted latch occurs in an operation, both sides of `Reads`
compute to the same state. -/
theorem latchFree_of_modeOk {i : Instr} (h : i.modeOk = true) : LatchFree i := by
  cases i with
  | adc o => exact .of_fetch h rfl (fun s => s.addCore s.fetched adcCarry) (fun _ => rfl) fun _ => rfl
  | sbc _ o => exact .of_fetch h rfl (fun s => s.addCore (s.fetched ^^^ 0xFF#8) sbcCarry) (fun _ => rfl) fun _ => rfl
  | and o => exact .of_fetch h rfl (fun s => s.setAccumulator (s.a &&& s.fetched)) (fun _ => rfl) fun _ => rfl
  | ora o => exact .of_fetch h rfl (fun s => s.setAccumulator (s.a ||| s.fetched)) (fun _ => rfl) fun _ => rfl
  | eor o => exact .of_fetch h rfl (fun s => s.setAccumulator (s.a ^^^ s.fetched)) (fun _ => rfl) fun _ => rfl
  | bit o => exact .of_fetch h rfl State.bitTest (fun _ => rfl) fun _ => rfl
  | cmp o => exact .of_fetch h rfl (fun s => s.compare s.a) (fun _ => by simp only [State.fetch_a]; rfl) fun _ => rfl
  | cpx o => exact .of_fetch h rfl (fun s => s.compare s.x) (fun _ => by simp only [State.fetch_x]; rfl) fun _ => rfl
  | cpy o => exact .of_fetch h rfl (fun s => s.compare s.y) (fun _ => by simp only [State.fetch_y]; rfl) fun _ => rfl
  | lda o => exact .of_fetch h rfl (fun s => (s.setA s.fetched).nz s.fetched) (fun _ => rfl) fun _ => rfl
  | ldx o => exact .of_fetch h rfl (fun s => (s.setX s.fetched).nz s.fetched) (fun _ => rfl) fun _ => rfl
  | ldy o => exact .of_fetch h rfl (fun s => (s.setY s.fetched).nz s.fetched) (fun _ => rfl) fun _ => rfl
  | asl o =>
    exact .of_shift h rfl (fun s => (aslTemp s.fetched).getLsbD 8) (fun s => aslTemp s.fetched)
      (fun _ => rfl) (fun _ => rfl) fun _ => rfl
  | lsr o =>
    exact .of_shift h rfl (fun s => s.fetched.getLsbD 0) (fun s => lsrTemp s.fetched)
      (fun _ => rfl) (fun _ => rfl) fun _ => rfl
  | rol o =>
    exact .of_shift h rfl (fun s => s.fetched.getLsbD 7) (fun s => rolTemp (s.flag .c) s.fetched)
      (fun _ => rfl) (fun _ => rfl) fun _ => rfl
  | ror o =>
    exact .of_shift h rfl (fun s => s.fetched.getLsbD 0) (fun s => rorTemp (s.flag .c) s.fetched)
      (fun _ => rfl) (fun _ => rfl) fun _ => rfl
  | inc o => exact .of_count h rfl rfl incTemp fun _ => rfl
  | dec o => exact .of_count h rfl rfl decTemp fun _ => rfl
  | sta o | stx o | sty o | jmp o =>
    refine ⟨_, _, fun _ => rfl, ?_⟩
    rw [modeLatch_eq_addrAbs h rfl rfl]
    exact fun _ => rfl
  | bpl _ | bmi _ | bvc _ | bvs _ | bcc _ | bcs _ | bne _ | beq _ => exact ⟨_, _, fun _ => rfl, .branch _ _⟩
  | inx | iny | dex | dey | tax | tay | txa | tya | tsx | txs | pha | php | pla | plp | clc | sec | cld | sed | cli | sei
  | clv | jsr _ | rts | rti | brk _ | nop _ _ | unused _ => exact ⟨_, _, fun _ => rfl, fun _ => rfl⟩

/-- Two runs of one instruction from states that differ in the latches. -/
theorem LatchFree.exec_congr {i : Instr} (hi : LatchFree i) {s s' t : State} (h : SameButLatches s s')
    (ht : exec i s = .next t) : ∃ t', exec i s' = .next t' ∧ SameButLatches t t' := by
  obtain ⟨hint, f, he, hf⟩ := hi
  obtain rfl : s.runOperation i.operand hint f = t := by simpa [he] using ht
  refine ⟨_, he s', sameButLatches_iff.mpr ?_⟩
  have hs := sameButLatches_iff.mp h
  have hcross : s.crosses i.operand = s'.crosses i.operand := by
    rw [← State.keepLatches_crosses, hs, State.keepLatches_crosses]
  have hop : (f (s.address i.operand)).keepLatches [] = (f (s'.address i.operand)).keepLatches [] := by
    rw [hf (s.address _), State.keepLatches_address, hs, ← State.keepLatches_address, ← hf]
  rw [State.runOperation_eq, State.runOperation_eq, hcross]
  exact congrArg (fun u => u.finish (s'.crosses i.operand && hint)) hop

theorem State.bytesFrom_congr {s t : State} (h : s.bus = t.bus) (n : Nat) (a : Addr) : s.bytesFrom n a = t.bytesFrom n a := by
  induction n generalizing s t a with
  | zero => rfl
  | succ n ih => rw [State.bytesFrom, State.bytesFrom, State.read_eq, h, ih (t := t.afterRead a) (by simp [h])]; rfl

theorem instructionBytes_eq_of_sameButLatches {s s' : State} (h : SameButLatches s s') (p : Params) :
    s'.instructionBytes p = s.instructionBytes p := by
  rw [State.instructionBytes, State.instructionBytes, State.read_eq, State.read_eq, h.bus, h.pc, State.bytesFrom_congr h.bus]

theorem sameButLatches_beginInstruction {s s' : State} (h : SameButLatches s s') :
    SameButLatches s.beginInstruction s'.beginInstruction := by
  rw [sameButLatches_iff] at h ⊢
  exact congrArg (fun u => u.beginInstruction.keepLatches []) h

theorem sameButLatches_tick {s s' : State} (h : SameButLatches s s') : SameButLatches s.tick s'.tick := by
  rw [sameButLatches_iff] at h ⊢
  exact congrArg State.tick h

/-- Settles O58: both states decode the same instruction, and a decoded instruction is `LatchFree`. -/
theorem latchesAreNeverReadAcrossInstructions : Obligations.LatchesAreNeverReadAcrossInstructions := by
  intro s s' t h ht
  obtain ⟨hb, ⟨hc, rfl⟩ | ⟨hc, i, rest, u, hd, hu, rfl⟩⟩ := clockWith_cases ht
  · have hc' : s'.countdown ≠ 0 := h.countdown ▸ hc
    exact ⟨_, clockWith_idle (h.boot.trans hb) hc', sameButLatches_tick h⟩
  · obtain ⟨u', hu', huu'⟩ := (latchFree_of_modeOk (modeOk_of_decode hd)).exec_congr (sameButLatches_beginInstruction h) hu
    have hd' := (congrArg (decode defaultParams) (instructionBytes_eq_of_sameButLatches h defaultParams)).trans hd
    exact ⟨_, clockWith_start (h.boot.trans hb) (h.countdown.trans hc) hd' hu', sameButLatches_tick huu'⟩

end Sys2Proof.Machine
end

section
/-! The host's calls before a bus is connected and before the first `reset()`, and its own dealings with the bus
(20_memory.md R61, R62, R74; 10_state.md R39). -/

namespace Sys2Proof.Machine

theorem call_hostRead (a : Addr) {s : State} (h : s.boot ≠ .noBus) : call (.hostRead a) s = .next (s.afterRead a) := by
  cases hb : s.boot with
  | noBus => exact absurd hb h
  | noReset | live => simp [call, callWith, callHostRead, hb]

theorem call_hostWrite (a : Addr) (v : Byte) {s : State} (h : s.boot ≠ .noBus) :
    call (.hostWrite a v) s = .next (s.write a v) := by
  cases hb : s.boot with
  | noBus => exact absurd hb h
  | noReset | live => simp [call, callWith, callHostWrite, hb]

/-- Settles O10: every call but `connect_bus` asks for the boot stage first. -/
theorem noCallBeforeBusAndReset : Obligations.NoCallBeforeBusAndReset := by
  refine fun s => ⟨fun hb c hc => ?_, fun hb c hc => ?_⟩
  · cases c with
    | connectBus b => exact absurd rfl (hc b)
    | clock => simp [call, callWith, clockWith, hb]
    | reset => simp [call, callWith, callReset, hb]
    | irq => simp [call, callWith, callIrq, hb]
    | nmi => simp [call, callWith, callNmi, hb]
    | hostRead a => simp [call, callWith, callHostRead, hb]
    | hostWrite a v => simp [call, callWith, callHostWrite, hb]
  · simp only [List.mem_cons, List.not_mem_nil, or_false] at hc
    rcases hc with rfl | rfl | rfl
    · simp [call, callWith, clockWith, hb]
    · simp [call, callWith, callIrq, hb]
    · simp [call, callWith, callNmi, hb]

/-- Settles O11: the answer of each call is written out. -/
theorem connectBusReplacesTheBus : Obligations.ConnectBusReplacesTheBus := by
  refine ⟨fun s b => ⟨_, call_connectBus b s, rfl, ?_⟩, fun s pair calls a v hboot hbus => ⟨?_, ?_, ?_⟩⟩
  · by_cases hlive : s.boot = .live <;> simp [hlive]
  · rw [State.read_eq, hbus, Bus.read]
  · rw [call_hostRead a hboot, State.afterRead, State.read_eq, hbus]
    rfl
  · rw [call_hostWrite a v hboot, State.write, hbus]
    rfl

/-- After any list of writes, an address reads as the last byte written to it, or as before (R62, R72). -/
theorem Memory.read_foldl_write (writes : List (Addr × Byte)) (m : Memory) (a : Addr) :
    (writes.foldl (fun m w => m.write w.1 w.2) m).read a =
      ((writes.reverse.find? fun w => w.1 == a).map Prod.snd).getD (m.read a) := by
  induction writes using List.reverseRecOn with
  | nil => rfl
  | append_singleton ws w ih =>
    rw [List.foldl_append, List.foldl_cons, List.foldl_nil, Memory.read_write, ih, List.reverse_append, List.reverse_singleton,
      List.singleton_append, List.find?_cons]
    by_cases h : w.1 = a
    · rw [if_pos h.symm, beq_iff_eq.mpr h]
      rfl
    · rw [if_neg (Ne.symm h), beq_false_of_ne h]

/-- Settles O38: the laws of one write and of one read, the first carried over the list. -/
theorem readGivesTheLastWrite : Obligations.ReadGivesTheLastWrite := by
  refine ⟨fun _ => rfl, fun writes m a => ?_, fun s m a hbus => ⟨?_, State.afterRead_ram hbus a, fun hboot => ?_⟩,
    fun s a v hboot => ⟨_, call_hostWrite a v hboot, ?_, ?_, rfl⟩⟩
  · rw [Memory.read_foldl_write]
    cases writes.reverse.find? fun w => w.1 == a <;> rfl
  · rw [State.read_eq, hbus, Bus.read]
  · rw [call_hostRead a hboot, State.afterRead_ram hbus]
  · exact .write (.of_bus rfl : MemoryBut [a] s s) rfl
  · exact .write (.of_bus rfl) rfl (List.mem_singleton_self a)

end Sys2Proof.Machine
end

section
/-! The stack (20_memory.md R66 to R68): what a pull reads, and where a push writes. -/

namespace Sys2Proof.Machine

open Sys2Proof.Shapes

/-- On the RAM a pull reads what the push stacked, in any state that keeps S and the byte (R66, R67). -/
theorem State.pulled_of_push {s t u : State} {v : Byte} (hr : OnRam s) (hbus : t.bus = (s.push v).bus) (hsp : t.sp = s.sp - 1)
    (husp : u.sp = t.sp) (hu : u.read (stackAddr s.sp) = t.read (stackAddr s.sp)) :
    u.sp + 1 = s.sp ∧ u.pulled = v := by
  have hback : u.sp + 1 = s.sp := by rw [husp, hsp, BitVec.sub_add_cancel]
  have hstored : Stored (stackAddr s.sp) v s t := .write (.of_bus rfl : MemoryBut [] s s) hbus
  exact ⟨hback, by rw [State.pulled_eq, hback, ← State.read_eq, hu, hstored.1 hr]⟩

/-- Settles O42: what is pulled is what was pushed, A or P with B and U. -/
theorem pullAfterPushGivesItBack : Obligations.PullAfterPushGivesItBack := by
  refine ⟨fun s t u hr ht husp hu => ?_, fun s t u hr ht husp hu => ?_⟩ <;> obtain rfl := Host.Outcome.next.inj ht
  · obtain ⟨hsp, hv⟩ := State.pulled_of_push (v := s.a) hr rfl rfl husp hu
    exact ⟨_, rfl, hv, hsp⟩
  · obtain ⟨hsp, hv⟩ := State.pulled_of_push (v := phpByte s.p) hr rfl rfl husp hu
    refine ⟨_, rfl, fun f => ?_, hsp⟩
    have hp : (u.address .imp).pulled = phpByte s.p := hv
    rw [State.runOperation_eq, State.finish_flag, State.setP_flag, getFlag_plpStatus, hp, getFlag_phpByte]
    cases f <;> rfl

section
variable {addrs : List Addr} {s t : State}

theorem MemoryBut.push (h : MemoryBut addrs s t) (v : Byte) (ha : stackAddr t.sp ∈ addrs) : MemoryBut addrs s (t.push v) :=
  h.write rfl ha

theorem MemoryBut.pushWord (h : MemoryBut addrs s t) (v : Addr) (hhi : stackAddr t.sp ∈ addrs)
    (hlo : stackAddr (t.sp - 1) ∈ addrs) : MemoryBut addrs s (t.pushWord v) :=
  (h.push (hi v) hhi).push (lo v) hlo

/-- Taking an interrupt writes where its three pushes do (R374). -/
theorem MemoryBut.takeInterrupt (h : MemoryBut addrs s t) (v : Addr) (b : Bool) (hhi : stackAddr t.sp ∈ addrs)
    (hlo : stackAddr (t.sp - 1) ∈ addrs) (hp : stackAddr (t.sp - 1 - 1) ∈ addrs) :
    MemoryBut addrs s (t.takeInterrupt v b) := by
  have hflags := (h.pushWord t.pc hhi hlo).congr_bus (u := ((t.pushWord t.pc).setFlag .i true).setFlag .b b) rfl
  exact (hflags.push _ hp).afterReads (l := [v, v + 1]) rfl

end

/-- What writes at stack addresses only stays in page 1 (R68). -/
theorem staysInPageOne_of_memoryBut {sps : List Byte} {s t : State} (h : MemoryBut (sps.map stackAddr) s t) :
    StaysInPageOne s t := by
  have hpage {a : Addr} (ha : a ∈ sps.map stackAddr) : 0x0100 ≤ a.toNat ∧ a.toNat ≤ 0x01FF := by
    obtain ⟨sp, -, rfl⟩ := List.mem_map.mp ha
    have := sp.isLt
    rw [stackAddr_toNat]
    omega
  refine ⟨fun hr a ha => (h.1 hr).2 a fun hmem => ?_, fun pair calls hs => ?_⟩
  · have := hpage hmem
    omega
  · obtain ⟨more, hb, hm⟩ := h.2 pair calls hs
    exact ⟨more, hb, fun a v hv => hpage (hm a v hv)⟩

theorem staysInPageOne_entry (v : Addr) (n : Nat) (s : State) : StaysInPageOne s (s.entry v n) := by
  have hflag : MemoryBut ([s.sp, s.sp - 1, s.sp - 1 - 1].map stackAddr) s (s.setFlag .u true) := .of_bus rfl
  exact staysInPageOne_of_memoryBut ((hflag.takeInterrupt v false (by simp) (by simp) (by simp)).congr_bus rfl)

/-- Settles O43: each of the calls writes at the stack addresses of S, S - 1 and S - 2 at most. -/
theorem stackStaysInPageOne : Obligations.StackStaysInPageOne := by
  refine ⟨stackAddr_toNat, fun i s t hop ht => ?_, fun c s t hc ht => ?_⟩
  · apply staysInPageOne_of_memoryBut (sps := [s.sp, s.sp - 1, s.sp - 1 - 1])
    have hmode := memoryBut_address ([s.sp, s.sp - 1, s.sp - 1 - 1].map stackAddr)
    cases i
    case pha | php =>
      obtain rfl := Host.Outcome.next.inj ht
      exact ((hmode .imp s).push _ (by simp)).congr_bus rfl
    case jsr addr =>
      obtain rfl := Host.Outcome.next.inj ht
      exact ((hmode (.abs addr) s).pushWord _ (by simp) (by simp)).congr_bus rfl
    case brk o =>
      obtain rfl := Host.Outcome.next.inj ht
      have hpc := (hmode o s).congr_bus (u := (s.address o).setPc ((s.address o).pc + 1)) rfl
      exact (hpc.takeInterrupt irqVector true (by simp) (by simp) (by simp)).congr_bus rfl
    all_goals simp [Instr.op] at hop
  · obtain rfl | rfl := hc
    · obtain ⟨-, rfl⟩ : s.boot = .live ∧ t = s.irq := by simpa using call_cases ht
      cases hi : s.flag .i with
      | true =>
        rw [State.irq_masked hi]
        exact staysInPageOne_of_memoryBut (sps := []) (.of_bus rfl)
      | false =>
        rw [State.irq_taken hi]
        exact staysInPageOne_entry irqVector irqCycles s
    · obtain ⟨-, rfl⟩ : s.boot = .live ∧ t = s.nmi := by simpa using call_cases ht
      exact staysInPageOne_entry nmiVector nmiCycles s

end Sys2Proof.Machine
end

section
/-! An instruction's bytes in memory: the decoder reads them back (30_encoding.md R92, R94; 40_fetch_and_addressing.md R121,
R122), and on the RAM they stand where they were written (20_memory.md R76). -/

namespace Sys2Proof.Machine

/-- The encoding of a well-formed instruction: the opcode of its row, then its operand bytes (R92, R95). -/
theorem encode_eq_cons {p : Params} {i : Instr} (h : i.wf p = true) :
    ∃ b, encode i = b :: i.operand.bytes ∧ rowMode p b = i.mode ∧
      ∀ rest, decode p (b :: (i.operand.bytes ++ rest)) = .ok (i, rest) := by
  obtain ⟨b, hb, ⟨hop, hmode⟩, hasm, hpolicy⟩ := Laws.Row.all i p h
  refine ⟨b, by rw [encode, hb], hmode, fun rest => ?_⟩
  have hruns : ¬(i.op = .unused ∧ p.illegal = .refuse) := fun ⟨hu, hr⟩ => by simp [hpolicy hu] at hr
  have htake : takeOperand i.mode (i.operand.bytes ++ rest) = some (i.operand, rest) := takeOperand_bytes i.operand rest
  simp only [decode, hop, if_neg hruns, hmode, htake, hasm]

/-- Where an instruction's bytes stand at PC, they are what the clock decodes, and the operand's stand at PC after the opcode. -/
theorem InstrAt.decodes {p : Params} {i : Instr} {s : State} (h : InstrAt i s) (hi : i.wf p = true) :
    decode p (s.instructionBytes p) = .ok (i, []) ∧ OperandAt i.operand s.beginInstruction := by
  obtain ⟨b, henc, hmode, hdec⟩ := encode_eq_cons hi
  rw [InstrAt, henc] at h
  obtain ⟨hb, hoperand⟩ := List.cons.inj h
  constructor
  · rw [State.instructionBytes_eq_cons, hb, hmode, Instr.mode, ← Operand.bytes_length, hoperand]
    simpa using hdec []
  · rw [OperandAt, State.beginInstruction_pc, State.bytesFrom_congr (s := s.beginInstruction) (t := s.afterRead s.pc) rfl]
    exact hoperand

theorem InstrAt.congr {i : Instr} {s t : State} (h : InstrAt i s) (hbus : t.bus = s.bus) (hpc : t.pc = s.pc) :
    InstrAt i t := by
  rw [InstrAt, hpc, State.bytesFrom_congr hbus]
  exact h

@[simp] theorem State.writeBytes_pc (a : Addr) (l : List Byte) (s : State) : (s.writeBytes a l).pc = s.pc := by
  induction l generalizing a s with
  | nil => rfl
  | cons v rest ih => exact ih _ _

@[simp] theorem State.writeBytes_boot (a : Addr) (l : List Byte) (s : State) : (s.writeBytes a l).boot = s.boot := by
  induction l generalizing a s with
  | nil => rfl
  | cons v rest ih => exact ih _ _

/-- What a write does to the RAM. -/
theorem OnRam.write {s : State} (hr : OnRam s) (a : Addr) (v : Byte) :
    OnRam (s.write a v) ∧ ∀ b, (s.write a v).read b = if b = a then v else s.read b := by
  obtain ⟨m, hm⟩ := hr
  have hbus : (s.write a v).bus = .ram (m.write a v) := by rw [State.write_bus, hm, Bus.write]
  refine ⟨⟨_, hbus⟩, fun b => ?_⟩
  rw [State.read_eq, State.read_eq, hbus, hm]
  exact Memory.read_write m a b v

/-- What writes at rising addresses do to the rest of the RAM. -/
theorem OnRam.writeBytes {s : State} (hr : OnRam s) (a : Addr) (l : List Byte) :
    OnRam (s.writeBytes a l) ∧
      ∀ b, (∀ k < l.length, b ≠ a + BitVec.ofNat 16 k) → (s.writeBytes a l).read b = s.read b := by
  induction l generalizing a s with
  | nil => exact ⟨hr, fun _ _ => rfl⟩
  | cons v rest ih =>
    obtain ⟨hw, hread⟩ := hr.write a v
    obtain ⟨hram, hrest⟩ := ih hw (a + 1)
    refine ⟨hram, fun b hb => (hrest b fun k hk => ?_).trans ?_⟩
    · have hk' := hb (k + 1) (Nat.succ_lt_succ hk)
      rwa [Nat.add_comm, BitVec.ofNat_add, ← BitVec.add_assoc] at hk'
    · rw [hread, if_neg (by simpa using hb 0 (Nat.succ_pos _))]

/-- On the RAM, bytes written at rising addresses are what reads there return, as long as no address comes twice. -/
theorem OnRam.bytesFrom_writeBytes {s : State} (hr : OnRam s) (a : Addr) (l : List Byte) (hl : l.length ≤ 65536) :
    (s.writeBytes a l).bytesFrom l.length a = l := by
  induction l generalizing a s with
  | nil => rfl
  | cons v rest ih =>
    obtain ⟨hw, hread⟩ := hr.write a v
    obtain ⟨⟨m, hm⟩, hrest⟩ := hw.writeBytes (a + 1) rest
    have hlen : rest.length < 65536 := hl
    have hhead : ((s.write a v).writeBytes (a + 1) rest).read a = v := by
      rw [hrest a fun k hk => by bv_omega, hread, if_pos rfl]
    rw [List.length_cons, State.writeBytes, State.bytesFrom, hhead, State.afterRead_ram hm, ih hw (a + 1) hlen.le]

/-- Settles O60: the bytes stand at PC, so the clock decodes them. -/
theorem writtenCodeIsFetched : Obligations.WrittenCodeIsFetched := by
  intro s i hr hboot hi
  have hlen : (encode i).length ≤ 65536 := by
    obtain ⟨b, henc, -, -⟩ := encode_eq_cons hi
    rw [henc]
    cases i.operand <;> simp [Operand.bytes]
  have hat : InstrAt i (s.writeBytes s.pc (encode i)) := by
    rw [InstrAt, State.writeBytes_pc]
    exact hr.bytesFrom_writeBytes s.pc (encode i) hlen
  obtain ⟨hdec, -⟩ := (hat.congr rfl rfl : InstrAt i { s.writeBytes s.pc (encode i) with countdown := 0 }).decodes hi
  obtain ⟨u, hu⟩ := exec_next i ({ s.writeBytes s.pc (encode i) with countdown := 0 } : State).beginInstruction
  exact ⟨u, hu, clockWith_start ((State.writeBytes_boot _ _ _).trans hboot) rfl hdec hu⟩

end Sys2Proof.Machine
end

section
/-! The list of bus accesses (20_memory.md R69, R72): what its replay does, operation by operation. -/

namespace Sys2Proof.Machine

/-- The accesses `l` replay on the bus of `s` and leave the bus of `t`. -/
def Accounts (l : List BusAccess) (s t : State) : Prop := replay l s.bus = some t.bus

theorem replay_append (l k : List BusAccess) (b : Bus) : replay (l ++ k) b = (replay l b).bind (replay k) := by
  induction l generalizing b with
  | nil => rfl
  | cons e rest ih =>
    cases e with
    | write a v => exact ih _
    | read a v =>
      simp only [List.cons_append, replay]
      split
      · exact ih _
      · rfl

/-- What replays on a host-supplied pair is what the pair has been called with. -/
theorem replay_host {l : List BusAccess} {pair : Nat} {calls : List BusAccess} {b : Bus}
    (h : replay l (.host pair calls) = some b) : b = .host pair (l.reverse ++ calls) := by
  induction l generalizing calls with
  | nil => exact (Option.some.inj h).symm
  | cons e rest ih =>
    rw [List.reverse_cons, List.append_assoc, List.singleton_append]
    cases e with
    | write a v => exact ih h
    | read a v =>
      rw [replay] at h
      split at h
      · next hv =>
        subst hv
        exact ih h
      · cases h

theorem Accounts.append {l k : List BusAccess} {s u t : State} (h : Accounts l s u) (h' : Accounts k u t) :
    Accounts (l ++ k) s t := by
  rw [Accounts, replay_append, h]
  exact h'

theorem Accounts.of_bus {s t : State} (h : t.bus = s.bus) : Accounts [] s t := congrArg some h.symm

/-- Only the bus counts. -/
theorem Accounts.congr_bus {l : List BusAccess} {s t u : State} (h : Accounts l s t) (hu : u.bus = t.bus) : Accounts l s u :=
  Eq.trans h (congrArg some hu.symm)

theorem Accounts.read {s : State} {a : Addr} {v : Byte} (h : s.read a = v) : Accounts [.read a v] s (s.afterRead a) := if_pos h

theorem Accounts.pair (low high : Addr) (s : State) : Accounts (s.pairAccesses low high) s (s.afterReads [low, high]) :=
  (Accounts.read rfl).append (.read rfl)

theorem Accounts.write (a : Addr) (v : Byte) (s : State) : Accounts [.write a v] s (s.write a v) := rfl

theorem Accounts.push (v : Byte) (s : State) : Accounts (pushAccesses s.sp [v]) s (s.push v) := .write _ _ _

theorem Accounts.pushWord (v : Addr) (s : State) : Accounts (pushAccesses s.sp [hi v, lo v]) s (s.pushWord v) :=
  (Accounts.push (hi v) s).append (.push (lo v) _)

theorem Accounts.pulls (n : Nat) (s : State) : Accounts (s.pullAccesses n) s (State.pull^[n] s) := by
  induction n generalizing s with
  | zero => exact .of_bus rfl
  | succ n ih => exact (Accounts.read rfl : Accounts [_] s s.pull).append (ih s.pull)

theorem Accounts.takeInterrupt (v : Addr) (b : Bool) (s : State) :
    Accounts (s.interruptAccesses v b) s (s.takeInterrupt v b) :=
  ((Accounts.pushWord s.pc s).append (.push _ _)).append (.pair v (v + 1) _)

/-- The accesses of an interrupt depend on the stack pointer, the status, PC and the bus alone. -/
theorem State.interruptAccesses_congr {s t : State} (hsp : s.sp = t.sp) (hp : s.p = t.p) (hpc : s.pc = t.pc)
    (hbus : s.bus = t.bus) (v : Addr) (b : Bool) : s.interruptAccesses v b = t.interruptAccesses v b := by
  simp [State.interruptAccesses, State.pairAccesses, State.readAccess, State.read_eq, hsp, hp, hpc, hbus]

/-- The reads of a mode, where the operand's bytes stand at PC (R130 to R141). -/
theorem Accounts.mode {o : Operand} {s : State} (h : OperandAt o s) : Accounts (s.modeAccesses o) s (s.address o) := by
  cases o with
  | imp | imm _ => exact .of_bus rfl
  | zp0 _ | zpx _ | zpy _ | rel _ => exact .read (List.cons.inj h).1
  | abs _ | abx _ | aby _ =>
    obtain ⟨hlo, hrest⟩ := List.cons.inj h
    exact (Accounts.read hlo).append (.read (List.cons.inj hrest).1)
  | ind ptr =>
    obtain ⟨hlo, hrest⟩ := List.cons.inj h
    exact ((Accounts.read hlo).append (.read (List.cons.inj hrest).1)).append (.pair ptr (indirectHigh ptr) _)
  | izx _ | izy _ => exact (Accounts.read (List.cons.inj h).1).append (.pair _ _ _)

/-- The read of `fetch()` after the mode's (R145); an immediate's byte is the one at PC. -/
theorem Accounts.fetch {o : Operand} {s : State} (h : OperandAt o s) :
    Accounts (s.fetchAccesses o) (s.address o) ((s.address o).fetch o) := by
  cases o with
  | imp => exact .of_bus rfl
  | imm _ => exact .read (List.cons.inj h).1
  | zp0 _ | zpx _ | zpy _ | rel _ | abs _ | abx _ | aby _ | ind _ | izx _ | izy _ => exact .read rfl

/-- A shift or rotate after its mode (R200). -/
theorem Accounts.shift {o : Operand} {s : State} (h : OperandAt o s) (c : Bool) {v v' : Addr} (hv : v' = v) :
    Accounts (s.fetchAccesses o ++ s.writeBackAccesses o (lo v)) (s.address o)
      (((s.address o).fetch o).shiftCore o c v') := by
  subst hv
  refine (Accounts.fetch h).append ?_
  by_cases himp : o = .imp
  · subst himp
    exact .of_bus rfl
  · have hwrite : s.writeBackAccesses o (lo v') = [.write (s.target o) (lo v')] := by
      cases o with
      | imp => exact absurd rfl himp
      | imm _ | zp0 _ | zpx _ | zpy _ | rel _ | abs _ | abx _ | aby _ | ind _ | izx _ | izy _ => rfl
    obtain ⟨-, hbus⟩ := State.shiftCore_memory c v' ((s.address o).fetch o) himp
    rw [hwrite]
    exact (Accounts.write _ _ _).congr_bus (by rw [hbus]; simp)

/-- An increment or decrement of memory after its mode (R205, R206). -/
theorem Accounts.count {o : Operand} {s : State} (h : OperandAt o s) {v v' : Addr} (hv : v' = v) :
    Accounts (s.fetchAccesses o ++ [.write (s.target o) (lo v)]) (s.address o) (((s.address o).fetch o).countMemory v') := by
  subst hv
  exact (Accounts.fetch h).append ((Accounts.write _ _ _).congr_bus (by rw [State.countMemory_bus]; simp))

/-- Every operation makes its listed accesses on the bus that its mode leaves. -/
theorem exec_operation_accounts {i : Instr} {s : State} (h : OperandAt i.operand s) :
    ∃ (hint : Bool) (f : State → State), exec i s = .next (s.runOperation i.operand hint f) ∧
      Accounts (s.operationAccesses i) (s.address i.operand) (f (s.address i.operand)) := by
  cases i
  all_goals refine ⟨_, _, rfl, ?_⟩
  case adc o | sbc _ o | and o | ora o | eor o | bit o | cmp o | cpx o | cpy o | lda o | ldx o | ldy o =>
    exact (Accounts.fetch h).congr_bus (by simp [Instr.operand])
  case asl o | lsr o | rol o | ror o => exact .shift h _ (by simp [Instr.operand])
  case inc o | dec o => exact .count h (by simp [Instr.operand])
  case sta o | stx o | sty o => exact (Accounts.write _ _ _).congr_bus (by simp [Instr.operand])
  case pha => exact .push _ _
  case php => exact (Accounts.push _ _).congr_bus rfl
  case pla | plp => exact (Accounts.pulls 1 _).congr_bus rfl
  case jsr addr => exact (Accounts.pushWord _ _).congr_bus rfl
  case rts => exact (Accounts.pulls 2 _).congr_bus rfl
  case rti => exact (Accounts.pulls 3 _).congr_bus (by rw [State.returnFromInterrupt_eq]; rfl)
  case brk o =>
    have hstacked : s.operationAccesses (.brk o) =
        ((s.address o).setPc ((s.address o).pc + 1)).interruptAccesses irqVector true :=
      State.interruptAccesses_congr (by simp) (by simp) (by simp) (by simp) _ _
    rw [hstacked]
    exact .takeInterrupt _ _ _
  -- The others make no access after their mode's.
  all_goals exact .of_bus (by simp)

/-- The accesses of an instruction whose operand's bytes stand at PC (R69). -/
theorem Accounts.exec {i : Instr} {s t : State} (h : OperandAt i.operand s) (ht : exec i s = .next t) :
    Accounts (s.instructionAccesses i) s t := by
  obtain ⟨hint, f, hf, hop⟩ := exec_operation_accounts h
  obtain rfl : s.runOperation i.operand hint f = t := by simpa [hf] using ht
  exact ((Accounts.mode h).append hop).congr_bus rfl

/-- The accesses of the tick that starts the instruction at PC (R121). -/
theorem Accounts.step {i : Instr} {s t : State} (hc : s.countdown = 0) (hi : i.wf defaultParams = true) (hat : InstrAt i s)
    (ht : step s = .next t) : Accounts (s.startAccesses i) s t := by
  obtain ⟨hdec, hoperand⟩ := hat.decodes hi
  obtain ⟨-, ⟨hidle, -⟩ | ⟨-, j, rest, u, hj, hu, rfl⟩⟩ := clockWith_cases ht
  · exact absurd hc hidle
  obtain ⟨rfl, -⟩ := Prod.mk.inj (Except.ok.inj (hdec.symm.trans hj))
  have hopcode : Accounts [s.readAccess s.pc] s s.beginInstruction := .read rfl
  exact (hopcode.append (.exec hoperand hu)).congr_bus rfl

end Sys2Proof.Machine
end

section
/-! The shape of the list of bus accesses, operation by operation (40_fetch_and_addressing.md R145; 20_memory.md R67). -/

namespace Sys2Proof.Machine

/-- A list of bus accesses without a read. -/
def OnlyWrites (l : List BusAccess) : Prop := ∃ ws : List (Addr × Byte), l = ws.map fun w => .write w.1 w.2

theorem OnlyWrites.nil : OnlyWrites [] := ⟨[], rfl⟩

theorem OnlyWrites.write (a : Addr) (v : Byte) : OnlyWrites [.write a v] := ⟨[(a, v)], rfl⟩

theorem OnlyWrites.push (sp v : Byte) : OnlyWrites (pushAccesses sp [v]) := .write _ _

theorem OnlyWrites.pushWord (sp h l : Byte) : OnlyWrites (pushAccesses sp [h, l]) :=
  ⟨[(stackAddr sp, h), (stackAddr (sp - 1), l)], rfl⟩

theorem OnlyWrites.writeBack (s : State) (o : Operand) (r : Byte) : OnlyWrites (s.writeBackAccesses o r) := by
  cases o with
  | imp => exact .nil
  | imm _ | zp0 _ | zpx _ | zpy _ | rel _ | abs _ | abx _ | aby _ | ind _ | izx _ | izy _ => exact .write _ _

theorem State.fetchAccesses_eq (s : State) (o : Operand) :
    s.fetchAccesses o = if o = .imp then [] else [.read (s.target o) (s.operandValue o)] := by
  cases o <;> rfl

/-- An operation of R145's list reads by `fetch()`, and then only writes. -/
theorem operationAccesses_of_fetching {i : Instr} (h : i.op ∈ fetchingOps) (s : State) :
    ∃ l, s.operationAccesses i = s.fetchAccesses i.operand ++ l ∧ OnlyWrites l := by
  cases i
  case adc | sbc | and | ora | eor | bit | cmp | cpx | cpy | lda | ldx | ldy =>
    exact ⟨[], (List.append_nil _).symm, .nil⟩
  case asl | lsr | rol | ror => exact ⟨_, rfl, .writeBack _ _ _⟩
  case inc | dec => exact ⟨_, rfl, .write _ _⟩
  all_goals simp [Instr.op, fetchingOps] at h

/-- An operation without `fetch()`, pops and vectors only writes. -/
theorem operationAccesses_of_not_reading {i : Instr} (h : i.op ∉ fetchingOps ++ [.pla, .plp, .rts, .rti, .brk]) (s : State) :
    OnlyWrites (s.operationAccesses i) := by
  cases i
  case sta | stx | sty => exact .write _ _
  case pha | php => exact .push _ _
  case jsr => exact .pushWord _ _ _
  case adc | sbc | and | ora | eor | bit | cmp | cpx | cpy | lda | ldx | ldy | asl | lsr | rol | ror | inc | dec | pla | plp
      | rts | rti | brk => simp [Instr.op, fetchingOps] at h
  all_goals exact .nil

/-- Settles O59: an instruction's list is that of its mode, then that of its operation; each part replays on the bus that the part
before it leaves. -/
theorem accessSequenceAccountsForMemory : Obligations.AccessSequenceAccountsForMemory := by
  refine ⟨fun i s t _ h ht => Accounts.exec h ht, fun i s t _ hc hi hat ht => Accounts.step hc hi hat ht,
    fun _ _ _ _ h => replay_host h, fun i s => ?_⟩
  have hsecond : s.sp + 2 = s.sp + 1 + 1 := (BitVec.add_assoc s.sp 1 1).symm
  have hthird : s.sp + 3 = s.sp + 1 + 1 + 1 := (BitVec.add_assoc s.sp 2 1).symm.trans (congrArg (· + 1) hsecond)
  refine ⟨fun h => ?_, fun h => ?_, fun h => ?_, fun h => ?_, fun h => ?_⟩
  · obtain ⟨l, hl, ws, rfl⟩ := operationAccesses_of_fetching h s
    exact ⟨ws, by rw [State.instructionAccesses, hl, State.fetchAccesses_eq, List.append_assoc]⟩
  · obtain ⟨ws, hws⟩ := operationAccesses_of_not_reading h s
    exact ⟨ws, congrArg (s.modeAccesses i.operand ++ ·) hws⟩
  · cases i
    case pla | plp => rfl
    all_goals simp [Instr.op] at h
  · cases i <;> cases h
    exact ⟨s.pulled, s.pull.pulled, by rw [hsecond]; rfl⟩
  · cases i <;> cases h
    exact ⟨s.pulled, s.pull.pulled, s.pull.pull.pulled, by rw [hsecond, hthird]; rfl⟩

end Sys2Proof.Machine
end

section
/-! Decoding under all parameters (30_encoding.md R90 to R99): the round trip, which opcodes decode, and what the opcode alone
fixes. -/

namespace Sys2Proof.Machine

/-! ### Decode after encode -/

/-- Settles O2: a well-formed instruction's bytes are its row's opcode and its operand's bytes, which the decoder takes back. -/
theorem decodeEncodeRoundTrip : Obligations.DecodeEncodeRoundTrip := by
  intro p i rest hi
  obtain ⟨b, henc, -, hdec⟩ := encode_eq_cons hi
  rw [henc, List.cons_append]
  exact hdec rest

/-! ### Which opcodes decode -/

/-- The unused rows of R98 are all the rows of the table (R95) with the operation `???`. -/
theorem tableRow_op_eq_unused_iff (b : Byte) : (tableRow b).op = .unused ↔ b ∈ unusedRows := by
  have hlisted : ∀ c : Byte, (tableRow c).op = .unused → c ∈ unusedRows := by decide +kernel
  exact ⟨hlisted b, fun h => (rowMode_plain defaultParams (unusedRows_agree b h)).1⟩

theorem operandBytes_le_two (m : Mode) : m.operandBytes ≤ 2 := by cases m <;> decide

/-- An operation takes every operand of its modes. -/
theorem assemble_of_mem_modes {op : Op} {o : Operand} (b : Byte) (h : o.mode ∈ op.modes) : ∃ i, assemble op b o = some i := by
  cases op
  case adc | sbc | and | ora | eor | bit | cmp | cpx | cpy | asl | lsr | rol | ror | inc | dec | lda | ldx | ldy | sta | stx | sty
      | jmp | brk | nop => exact ⟨_, rfl⟩
  -- The others have one mode, and its operands have one constructor.
  case bpl | bmi | bvc | bvs | bcc | bcs | bne | beq =>
    match o, List.mem_singleton.mp h with
    | .rel _, _ => exact ⟨_, rfl⟩
  case jsr =>
    match o, List.mem_singleton.mp h with
    | .abs _, _ => exact ⟨_, rfl⟩
  all_goals
    match o, List.mem_singleton.mp h with
    | .imp, _ => exact ⟨_, rfl⟩

/-- The table's rows assemble, so a row that the policy runs decodes as soon as its operand bytes are there. -/
theorem decode_of_length {p : Params} {b : Byte} {tail : List Byte} (hruns : ¬((tableRow b).op = .unused ∧ p.illegal = .refuse))
    (hlen : (rowMode p b).operandBytes ≤ tail.length) : ∃ i rest, decode p (b :: tail) = .ok (i, rest) := by
  obtain ⟨o, rest, ho⟩ := takeOperand_some (rowMode p b) hlen
  obtain ⟨hmode, -⟩ := takeOperand_cases ho
  obtain ⟨i, hi⟩ := assemble_of_mem_modes b (hmode ▸ rowMode_mem_modes p b)
  exact ⟨i, rest, by simp only [decode, if_neg hruns, ho, hi]⟩

theorem decode_refused {p : Params} {b : Byte} (tail : List Byte) (hop : (tableRow b).op = .unused) (hp : p.illegal = .refuse) :
    decode p (b :: tail) = .error (.illegalOpcode b) := by
  simp only [decode, if_pos (And.intro hop hp)]

/-- Settles O4: two bytes are enough for every mode, and the policy decides on the rows of R98 alone. -/
theorem everyOpcodeDecodes : Obligations.EveryOpcodeDecodes := by
  intro p b v w
  refine ⟨fun h => decode_of_length ?_ (operandBytes_le_two _), fun hp hb =>
    decode_refused _ ((tableRow_op_eq_unused_iff b).mpr hb) hp⟩
  rintro ⟨hop, hp⟩
  obtain hnop | hb := h
  · simp [hnop] at hp
  · exact hb ((tableRow_op_eq_unused_iff b).mp hop)

/-! ### What the opcode alone fixes -/

/-- Settles O5: the operand is taken from the bytes after the opcode by the row's mode, and the table has the modes of R97. -/
theorem opcodeAloneFixesLength : Obligations.OpcodeAloneFixesLength := by
  refine ⟨fun p b tail rest i h => ?_, fun p e he => ?_⟩
  · obtain ⟨_, _, hbs, -, ho, -⟩ := decode_cases h
    obtain ⟨rfl, rfl⟩ := List.cons.inj hbs
    obtain ⟨hmode, rfl⟩ := takeOperand_cases ho
    refine ⟨hmode, ?_⟩
    rw [List.length_append, Operand.bytes_length, hmode, Nat.add_comm]
  · have hrow := unofficialNops_agree e he
    simp only [Bool.and_eq_true, beq_iff_eq, bne_iff_ne] at hrow
    obtain ⟨⟨⟨-, hmode⟩, hbrk⟩, hnop⟩ := hrow
    rw [rowMode, if_neg hbrk, if_pos hnop]
    cases p.nopModes with
    | hardware => exact hmode
    | implied => rfl

/-! ### Words of the opcode map -/

/-- Settles O1: each word is evaluated by the decoder. -/
theorem knownWordsDecode : Obligations.KnownWordsDecode :=
  ⟨rfl, rfl, rfl, rfl, rfl, rfl, rfl, rfl, rfl, rfl, rfl, rfl, rfl, rfl, rfl⟩

end Sys2Proof.Machine
end

section
/-! The tick (40_fetch_and_addressing.md R120 to R124): an idle one only counts, the others run the instruction at PC. -/

namespace Sys2Proof.Machine

/-- Settles O6: the clock decodes the instruction whose bytes stand at PC, and no meaning stops. -/
theorem stepRunsDecodedInstruction : Obligations.StepRunsDecodedInstruction := by
  intro p s i hboot hcount hi hat
  obtain ⟨hdec, -⟩ := hat.decodes hi
  obtain ⟨u, hu⟩ := exec_next i s.beginInstruction
  have hclock : clockWith p s = .next u.tick := clockWith_start hboot hcount hdec hu
  exact ⟨u, hu, hclock, by rintro rfl; exact hclock⟩

/-- Settles O7: an idle tick is `State.tick`, and the countdown it takes one from is not 0. -/
theorem idleTickOnlyCounts : Obligations.IdleTickOnlyCounts :=
  fun s hboot hcount => ⟨s.tick, clockWith_idle hboot hcount, Nat.succ_pred hcount, rfl, rfl⟩

end Sys2Proof.Machine
end

section
/-! The addressing modes and `fetch()` in numbers (40_fetch_and_addressing.md R130 to R145). -/

namespace Sys2Proof.Machine

/-! ### Addresses -/

/-- An index is added modulo 65536 (R137). -/
theorem add_zext16_toNat (a : Addr) (v : Byte) : (a + zext16 v).toNat = (a.toNat + v.toNat) % 65536 := by
  rw [BitVec.toNat_add, zext16_toNat]

/-- Two addresses are on different pages exactly if their numbers are (R137). -/
theorem hi_bne_iff (a b : Addr) : (hi a != hi b) = true ↔ a.toNat / 256 ≠ b.toNat / 256 := by
  rw [bne_iff_ne, ne_eq, ← BitVec.toNat_inj, hi_toNat, hi_toNat]

/-- The two addresses of a zero-page pointer, by a number that is the pointer modulo 256: both stay in page 0 (R140, R141). -/
theorem zeroPagePointer_eq_ofNat {v : Byte} {k : Nat} (h : v.toNat = k % 256) :
    zext16 v = BitVec.ofNat 16 (k % 256) ∧ zext16 (v + 1) = BitVec.ofNat 16 ((k + 1) % 256) := by
  have hnext : (v + 1).toNat = (k + 1) % 256 := by
    rw [BitVec.toNat_add, h]
    exact Nat.mod_add_mod k 256 1
  constructor <;> apply BitVec.eq_of_toNat_eq <;> rw [zext16_toNat, BitVec.toNat_ofNat]
  · omega
  · omega

/-- The mask of R139 keeps the page and drops the place in it. -/
theorem and_FF00_toNat (a : Addr) : (a &&& 0xFF00#16).toNat = a.toNat / 256 * 256 := by
  have := a.isLt
  have hmask : 0xFF00#16 = BitVec.allOnes 16 <<< 8 := by decide
  rw [hmask, ← BitVec.shiftLeft_ushiftRight, BitVec.toNat_shiftLeft, BitVec.toNat_ushiftRight,
    Nat.shiftLeft_eq, Nat.shiftRight_eq_div_pow]
  omega

/-- Where IND reads its high byte, in numbers (R139). -/
theorem indirectHigh_eq_ofNat (ptr : Addr) :
    indirectHigh ptr = BitVec.ofNat 16 (if ptr.toNat % 256 = 255 then ptr.toNat - 255 else ptr.toNat + 1) := by
  have := ptr.isLt
  have hend : lo ptr = 0xFF ↔ ptr.toNat % 256 = 255 := by rw [← BitVec.toNat_inj, lo_toNat]; rfl
  apply BitVec.eq_of_toNat_eq
  rw [indirectHigh, BitVec.toNat_ofNat]
  by_cases h : ptr.toNat % 256 = 255
  · rw [if_pos (hend.mpr h), if_pos h, and_FF00_toNat]
    omega
  · rw [if_neg (mt hend.mp h), if_neg h, BitVec.toNat_add]
    rfl

/-! ### What a mode does -/

/-- A mode that computes an address writes it to `addr_abs`, advances PC and makes its reads (R131 to R134, R136 to R141). -/
theorem State.address_of_memory {o : Operand} {s : State} {pc : Addr} {bus : Bus} (hpc : s.nextPc o = pc)
    (hbus : (s.afterMode o).bus = bus) (himp : o ≠ .imp := by nofun) (hrel : ∀ d, o ≠ .rel d := by nofun) :
    s.address o = { s with addrAbs := s.target o, pc := pc, bus := bus } := by
  have hfetched : (s.address o).fetched = s.fetched := by
    rw [State.address_fetched]
    split
    · exact absurd rfl himp
    · rfl
  have haddrRel : (s.address o).addrRel = s.addrRel := by
    rw [State.address_addrRel]
    split
    · exact absurd rfl (hrel _)
    · rfl
  apply State.ext <;> simp [hfetched, haddrRel, hpc, hbus]

theorem State.readPair_toNat (s : State) (low high : Addr) :
    (s.readPair low high).toNat = ((s.afterRead low).read high).toNat * 256 + (s.read low).toNat := joinBytes_toNat _ _

/-- Settles O19: the sum of two bytes is taken modulo 256 before it becomes an address. -/
theorem zeroPageModes : Obligations.ZeroPageModes := by
  intro z s
  refine ⟨zext16_toNat z, ?_, ?_, ?_⟩
  · exact (zext16_toNat _).trans (BitVec.toNat_add z s.x)
  · exact (zext16_toNat _).trans (BitVec.toNat_add z s.y)
  · simp only [List.forall_mem_cons]
    exact ⟨⟨rfl, rfl, State.address_of_memory rfl rfl⟩, ⟨rfl, rfl, State.address_of_memory rfl rfl⟩,
      ⟨rfl, rfl, State.address_of_memory rfl rfl⟩, nofun⟩

/-- Settles O20: the index is added to the base as an address, and the hint compares the high bytes of the two. -/
theorem absoluteModes : Obligations.AbsoluteModes := by
  intro base s
  refine ⟨rfl, rfl, add_zext16_toNat base s.x, add_zext16_toNat base s.y, ?_, ?_⟩ <;> simp only [List.forall_mem_cons]
  · exact ⟨hi_bne_iff _ _, hi_bne_iff _ _, nofun⟩
  · exact ⟨⟨rfl, State.address_of_memory rfl rfl⟩, ⟨rfl, State.address_of_memory rfl rfl⟩,
      ⟨rfl, State.address_of_memory rfl rfl⟩, nofun⟩

/-- Settles O21: where the high byte of the target is read is `indirectHigh_eq_ofNat`. -/
theorem indirectModeWrapsInThePage : Obligations.IndirectModeWrapsInThePage := by
  intro ptr s
  rw [← indirectHigh_eq_ofNat]
  exact ⟨State.readPair_toNat _ _ _, rfl, rfl, State.address_of_memory rfl rfl⟩

/-- Settles O22: both pointers' addresses are those of `zeroPagePointer_eq_ofNat`; IZY adds Y and hints as an
absolute mode does. -/
theorem zeroPagePointerModes : Obligations.ZeroPagePointerModes := by
  intro z s
  obtain ⟨hx, hx'⟩ := zeroPagePointer_eq_ofNat (BitVec.toNat_add z s.x)
  obtain ⟨hz, hz'⟩ := zeroPagePointer_eq_ofNat (Nat.mod_eq_of_lt z.isLt).symm
  have hsum : (s.target (.izy z)).toNat = ((s.zeroPageWord z).toNat + s.y.toNat) % 65536 := add_zext16_toNat _ _
  have hcross := hi_bne_iff (s.target (.izy z)) (s.zeroPageWord z)
  rw [hsum] at hcross
  rw [State.zeroPageWord, State.readPair_toNat] at hsum hcross
  simp only [← hx, ← hx', ← hz, ← hz']
  exact ⟨State.readPair_toNat _ _ _, rfl, rfl, State.address_of_memory rfl rfl,
    hsum, rfl, hcross, State.address_of_memory rfl rfl⟩

/-- Settles O23: the three modes are evaluated, and the sign extension keeps the byte's signed value. -/
theorem impliedImmediateAndRelativeModes : Obligations.ImpliedImmediateAndRelativeModes := by
  intro v s
  refine ⟨rfl, rfl, ⟨sext16 v, BitVec.toInt_signExtend_of_le (by decide), rfl⟩, rfl, rfl, rfl, ?_⟩
  simp only [List.forall_mem_cons]
  exact ⟨rfl, rfl, rfl, nofun⟩

/-! ### The operand read -/

/-- Outside IMP the operand value is the byte at the address of the mode; an immediate's stands at PC (R145, log 14). -/
theorem State.operandValue_eq_read {o : Operand} {s : State} (h : OperandAt o s) (himp : o ≠ .imp) :
    s.operandValue o = (s.address o).read (s.target o) := by
  rw [State.read_eq, State.address_bus]
  cases o with
  | imp => exact absurd rfl himp
  | imm v => exact (List.cons.inj h).1.symm
  | zp0 _ | zpx _ | zpy _ | rel _ | abs _ | abx _ | aby _ | ind _ | izx _ | izy _ => rfl

/-- Settles O24: the latch takes the operand value, which outside IMP is the byte at `addr_abs`. -/
theorem fetchReadsTheAddressedByte : Obligations.FetchReadsTheAddressedByte := by
  intro o s h u
  refine ⟨?_, fun himp => ?_, State.fetch_address_fetched o s⟩
  · rintro rfl
    exact ⟨rfl, rfl⟩
  · have hu : u.read u.addrAbs = s.operandValue o := by
      rw [State.operandValue_eq_read h himp, State.address_addrAbs]
    rw [State.fetchAccesses_eq, if_neg himp, hu, State.address_addrAbs]
    refine ⟨?_, rfl⟩
    apply State.ext <;> simp [u, State.fetch_bus, himp]

end Sys2Proof.Machine
end

section
/-! The rows of an instruction in the opcode table (30_encoding.md R95). -/

namespace Sys2Proof.Machine

/-- The rows of an instruction: they are its opcodes, and it is well-formed in their modes alone. -/
theorem Opcodes.of_opcode {rows : List (Mode × Byte)} {f : Operand → Instr}
    (hopcode : ∀ o b, rows.lookup o.mode = some b → (f o).opcode = some b := by exact fun _ _ h => h)
    (hwf : ∀ o, (f o).wf defaultParams = (rows.lookup o.mode).isSome := by intro o; cases o <;> rfl)
    (hoperand : ∀ o, (f o).operand = o := by intro; rfl) : Opcodes rows f := by
  refine ⟨fun o b rest hb => ?_, fun o hnone => by rw [hwf, hnone]; rfl⟩
  obtain ⟨b', henc, -, hdec⟩ := encode_eq_cons (by rw [hwf, hb]; rfl : (f o).wf defaultParams = true)
  rw [encode, hopcode o b hb, hoperand] at henc
  obtain ⟨rfl, -⟩ := List.cons.inj henc
  simpa only [hoperand] using hdec rest

end Sys2Proof.Machine
end

section
/-! What an operation on registers, flags and latches alone leaves of the rest of the machine, and what the instruction that runs
it after `fetch()` leaves. -/

namespace Sys2Proof.Machine

/-- From `u` to `w` an operation writes the listed registers, flags and latches at most. Memory is stated beside it. -/
structure Writes (regs : List Reg) (flags : List Flag) (latches : List Latch) (u w : State) : Prop where
  regs : ∀ r, r ∉ regs → w.reg r = u.reg r
  flags : ∀ f, f ∉ flags → w.flag f = u.flag f
  latches : ∀ l, l ∉ latches → w.latch l = u.latch l
  pc : w.pc = u.pc
  countdown : w.countdown = u.countdown
  opcode : w.opcode = u.opcode
  clockCount : w.clockCount = u.clockCount
  boot : w.boot = u.boot

theorem State.reg_fetch_address (o : Operand) (s : State) (r : Reg) : ((s.address o).fetch o).reg r = s.reg r := by
  cases r <;> simp [State.reg]

/-- The mode writes its own latch, `fetch()` the latch `fetched` (R130 to R145). -/
theorem State.latch_fetch_address {o : Operand} {l : Latch} (hfetched : l ≠ .fetched) (hmode : l ≠ modeLatch o) (s : State) :
    ((s.address o).fetch o).latch l = s.latch l := by
  cases l with
  | fetched => exact absurd rfl hfetched
  | temp => simp [State.latch]
  | addrAbs =>
    cases o with
    | imp | rel _ => simp [State.latch, State.target]
    | imm _ | zp0 _ | zpx _ | zpy _ | abs _ | abx _ | aby _ | ind _ | izx _ | izy _ => exact absurd rfl hmode
  | addrRel =>
    cases o with
    | rel _ => exact absurd rfl hmode
    | imp | imm _ | zp0 _ | zpx _ | zpy _ | abs _ | abx _ | aby _ | ind _ | izx _ | izy _ =>
      simp [State.latch, State.address_addrRel]

section
variable {regs : List Reg} {flags : List Flag} {latches : List Latch} {o : Operand} {s w : State}

/-- The frame of an instruction whose operation runs after `fetch()` (R121, R145). -/
theorem Writes.frame (h : Writes regs flags latches ((s.address o).fetch o) w) (extra : Bool) :
    Frame regs flags (.fetched :: (latches ++ [modeLatch o])) s (w.finish extra) where
  regs r hr := (h.regs r hr).trans (State.reg_fetch_address o s r)
  flags f hf hu := by simp [hu, h.flags f hf]
  unusedFlag := by simp
  latches l hl := by
    simp only [List.mem_cons, List.mem_append, List.not_mem_nil, or_false, not_or] at hl
    obtain ⟨hfetched, hl, hmode⟩ := hl
    exact (h.latches l hl).trans (State.latch_fetch_address hfetched hmode s)
  opcode := by simp [h.opcode]
  clockCount := by simp [h.clockCount]
  boot := by simp [h.boot]

/-- PC and the countdown after such an instruction (R123). -/
theorem Writes.sequential (h : Writes regs flags latches ((s.address o).fetch o) w) (hint : Bool) :
    Sequential o hint s (w.finish (s.crosses o && hint)) := by
  constructor
  · simp [h.pc, State.nextPc]
  · simp [h.countdown, Bool.and_comm]

/-- Everything that such an instruction keeps, if its operation makes no access of its own. -/
theorem Writes.keeps (h : Writes regs flags latches ((s.address o).fetch o) w) (hbus : w.bus = ((s.address o).fetch o).bus)
    (hint : Bool) :
    Sequential o hint s (w.finish (s.crosses o && hint)) ∧ SameMemory s (w.finish (s.crosses o && hint)) ∧
      Frame regs flags (.fetched :: (latches ++ [modeLatch o])) s (w.finish (s.crosses o && hint)) :=
  ⟨h.sequential hint, (memoryBut_fetch [] o s).congr_bus hbus, h.frame _⟩

end

end Sys2Proof.Machine
end

section
/-! Arithmetic, logic, bit test and compare in numbers (41_alu_arith_logic.md). -/

namespace Sys2Proof.Machine

open Sys2Proof.Shapes

/-! ### What each shared operation writes -/

theorem Writes.addCore (v : Byte) (c : Addr → Bool) (u : State) :
    Writes [.a] [.c, .v, .z, .n] [.temp] u (u.addCore v c) where
  regs r hr := by cases r <;> simp_all [State.reg]
  flags f hf := by cases f <;> simp_all [State.addCore_flag]
  latches l hl := by cases l <;> simp_all [State.latch]
  pc := State.addCore_pc v c u
  countdown := State.addCore_countdown v c u
  opcode := State.addCore_opcode v c u
  clockCount := State.addCore_clockCount v c u
  boot := State.addCore_boot v c u

theorem Writes.setAccumulator (r : Byte) (u : State) : Writes [.a] [.z, .n] [] u (u.setAccumulator r) where
  regs r hr := by cases r <;> simp_all [State.reg]
  flags f hf := by cases f <;> simp_all [State.setAccumulator_flag]
  latches l hl := by cases l <;> simp [State.latch]
  pc := State.setAccumulator_pc r u
  countdown := State.setAccumulator_countdown r u
  opcode := State.setAccumulator_opcode r u
  clockCount := State.setAccumulator_clockCount r u
  boot := State.setAccumulator_boot r u

theorem Writes.compare (r : Byte) (u : State) : Writes [] [.c, .z, .n] [.temp] u (u.compare r) where
  regs r hr := by cases r <;> simp [State.reg]
  flags f hf := by cases f <;> simp_all [State.compare_flag]
  latches l hl := by cases l <;> simp_all [State.latch]
  pc := State.compare_pc r u
  countdown := State.compare_countdown r u
  opcode := State.compare_opcode r u
  clockCount := State.compare_clockCount r u
  boot := State.compare_boot r u

theorem Writes.bitTest (u : State) : Writes [] [.z, .n, .v] [.temp] u u.bitTest where
  regs r hr := by cases r <;> simp [State.reg]
  flags f hf := by cases f <;> simp_all [State.bitTest_flag]
  latches l hl := by cases l <;> simp_all [State.latch]
  pc := State.bitTest_pc u
  countdown := State.bitTest_countdown u
  opcode := State.bitTest_opcode u
  clockCount := State.bitTest_clockCount u
  boot := State.bitTest_boot u

/-! ### Z, N and the carry in numbers -/

theorem FlagsFollow.of_eq {v : Byte} {t : State} (hz : t.flag .z = (v == 0)) (hn : t.flag .n = v.msb) : FlagsFollow v t := by
  refine ⟨?_, hn.trans (BitVec.msb_eq_decide v)⟩
  rw [hz, Bool.beq_eq_decide_eq]
  exact decide_eq_decide.mpr BitVec.toNat_inj.symm

theorem adcCarry_eq (t : Addr) : adcCarry t = decide (255 < t.toNat) := rfl

/-- Some bit of the high byte is set exactly if the word exceeds 255 (R162; 90_conflicts.md C3). -/
theorem sbcCarry_eq (t : Addr) : sbcCarry t = decide (255 < t.toNat) := by
  have hzero : t &&& 0xFF00#16 = 0#16 ↔ t.toNat / 256 * 256 = 0 := by rw [← BitVec.toNat_inj, and_FF00_toNat]; rfl
  rw [sbcCarry, bne, Bool.beq_eq_decide_eq, ← decide_not, decide_eq_decide, hzero]
  omega

/-! ### ADC and SBC -/

theorem sumTemp_toNat (a v : Byte) (c : Bool) : (sumTemp a v c).toNat = a.toNat + v.toNat + c.toNat := by
  have ha := a.isLt
  have hv := v.isLt
  have hc : (carryIn c).toNat = c.toNat := by cases c <;> rfl
  have hc1 := c.toNat_le
  rw [sumTemp, BitVec.toNat_add, BitVec.toNat_add, zext16_toNat, zext16_toNat, hc]
  omega

/-- The overflow bit says that the operands have the same sign and the result the other (R161). -/
theorem sumOverflow_eq_msb (a v : Byte) (t : Addr) :
    sumOverflow a v t = (a.msb == v.msb && (lo t).msb != a.msb) := by
  have hmask : 0x0080#16 = BitVec.twoPow 16 7 := by decide
  have hbit (x : Addr) : (x &&& 0x0080#16 != 0#16) = x.getLsbD 7 := by
    rw [hmask, BitVec.and_twoPow]
    cases x.getLsbD 7 <;> decide
  have hzext (b : Byte) : (zext16 b).getLsbD 7 = b.msb := by simp [zext16, BitVec.msb_eq_getLsbD_last]
  have hlo : t.getLsbD 7 = (lo t).msb := by simp [lo, BitVec.msb_eq_getLsbD_last]
  rw [sumOverflow, hbit]
  simp only [BitVec.getLsbD_and, BitVec.getLsbD_not, BitVec.getLsbD_xor, hzext, hlo]
  cases a.msb <;> cases v.msb <;> cases (lo t).msb <;> rfl

/-- Two bytes and a carry leave the signed range exactly if the operands have the same sign and the sum another. -/
theorem signed_sum_overflow {a v r : Byte} {c : Bool} (hr : r.toNat = (a.toNat + v.toNat + c.toNat) % 256) :
    (a.msb == v.msb && r.msb != a.msb) =
      decide (a.toInt + v.toInt + (c.toNat : Int) < -128 ∨ 127 < a.toInt + v.toInt + (c.toNat : Int)) := by
  have ha := a.isLt
  have hv := v.isLt
  have hc := c.toNat_le
  rw [Bool.eq_iff_iff]
  simp only [BitVec.toInt_eq_toNat_cond, BitVec.msb_eq_decide, decide_eq_true_eq, Bool.and_eq_true, beq_iff_eq, bne_iff_ne,
    ne_eq, decide_eq_decide]
  omega

/-- What ADC and SBC leave of A, `v` (M or its complement) and the carry, as numbers (R161, R162). -/
structure Added (a v : Byte) (c : Bool) (t : State) : Prop where
  temp : t.temp.toNat = a.toNat + v.toNat + c.toNat
  sum : t.a.toNat = (a.toNat + v.toNat + c.toNat) % 256
  carry : t.flag .c = decide (255 < a.toNat + v.toNat + c.toNat)
  signed : t.flag .v = decide (a.toInt + v.toInt + (c.toNat : Int) < -128 ∨ 127 < a.toInt + v.toInt + (c.toNat : Int))
  sign : t.flag .v = (a.msb == v.msb && t.a.msb != a.msb)
  zn : FlagsFollow t.a t

theorem Added.addCore {carryOut : Addr → Bool} (hcarry : ∀ t, carryOut t = decide (255 < t.toNat)) (v : Byte) (u : State)
    (extra : Bool) : Added u.a v (u.flag .c) ((u.addCore v carryOut).finish extra) := by
  have ha : ((u.addCore v carryOut).finish extra).a = lo (sumTemp u.a v (u.flag .c)) := State.addCore_a v carryOut u
  have hlo : (lo (sumTemp u.a v (u.flag .c))).toNat = (u.a.toNat + v.toNat + (u.flag .c).toNat) % 256 := by
    rw [lo_toNat, sumTemp_toNat]
  have hsign : ((u.addCore v carryOut).finish extra).flag .v =
      (u.a.msb == v.msb && (lo (sumTemp u.a v (u.flag .c))).msb != u.a.msb) := by
    simp [State.addCore_flag, sumOverflow_eq_msb]
  refine ⟨?_, ?_, ?_, ?_, ?_, ?_⟩
  · rw [State.finish_temp, State.addCore_temp, sumTemp_toNat]
  · rw [ha, hlo]
  · simp [State.addCore_flag, hcarry, sumTemp_toNat]
  · rw [hsign, signed_sum_overflow hlo]
  · rw [ha, hsign]
  · rw [ha]
    exact .of_eq (by simp [State.addCore_flag]) (by simp [State.addCore_flag])

/-- The operation of ADC and SBC after `fetch()`: it adds to the A and the carry from before the instruction. -/
theorem Added.fetch {carryOut : Addr → Bool} (hcarry : ∀ t, carryOut t = decide (255 < t.toNat)) (v : Byte) (o : Operand)
    (s : State) (extra : Bool) :
    Added s.a v (s.flag .c) ((((s.address o).fetch o).addCore v carryOut).finish extra) := by
  simpa only [State.fetch_a, State.address_a, State.fetch_flag, State.address_flag] using
    Added.addCore hcarry v ((s.address o).fetch o) extra

/-- The operand read and an operation on the byte it returns (R145). -/
theorem State.runOperation_fetch (o : Operand) (hint : Bool) (g : Byte → State → State) (s : State) :
    s.runOperation o hint (fun u => let u := u.fetch o; g u.fetched u) =
      (g (s.operandValue o) ((s.address o).fetch o)).finish (s.crosses o && hint) := by
  rw [← State.fetch_address_fetched]
  rfl

theorem exec_adc (o : Operand) (s : State) :
    exec (.adc o) s = .next ((((s.address o).fetch o).addCore (s.operandValue o) adcCarry).finish (s.crosses o && true)) :=
  congrArg Host.Outcome.next (State.runOperation_fetch o true (fun m u => u.addCore m adcCarry) s)

/-- SBC adds the complement of M (R162). -/
theorem exec_sbc (viaEB : Bool) (o : Operand) (s : State) :
    exec (.sbc viaEB o) s =
      .next ((((s.address o).fetch o).addCore (~~~s.operandValue o) sbcCarry).finish (s.crosses o && true)) := by
  have hnot (m : Byte) : ~~~m = m ^^^ 0xFF#8 := BitVec.xor_allOnes.symm
  rw [hnot]
  exact congrArg Host.Outcome.next (State.runOperation_fetch o true (fun m u => u.addCore (m ^^^ 0xFF#8) sbcCarry) s)

/-- Settles O25: `Added` for M itself, with ADC's carry. -/
theorem adcAddsWithCarry : Obligations.AdcAddsWithCarry := by
  refine ⟨.of_opcode, fun o s => ⟨_, exec_adc o s, ?_, (Writes.addCore _ _ _).keeps (State.addCore_bus _ _ _) true⟩⟩
  obtain ⟨htemp, hsum, hcarry, hsigned, hsign, hzn⟩ :=
    Added.fetch adcCarry_eq (s.operandValue o) o s (s.crosses o && true)
  exact ⟨htemp, hsum, hcarry, hsigned, hsign, hzn, by simp⟩

/-- The complement of M as a signed number (R162). -/
theorem toInt_not (m : Byte) : (~~~m).toInt = -m.toInt - 1 := by
  have hnot : (~~~m).toNat = 255 - m.toNat := BitVec.toNat_not
  have := m.isLt
  simp only [BitVec.toInt_eq_toNat_cond, hnot]
  omega

/-- Settles O26: `Added` for the complement of M, whose number is `255 - M` and whose signed value is `-M - 1`. -/
theorem sbcSubtractsWithBorrow : Obligations.SbcSubtractsWithBorrow := by
  refine ⟨.of_opcode, .of_opcode (fun o b h => ?_), fun viaEB o s =>
    ⟨_, exec_sbc viaEB o s, ?_, (Writes.addCore _ _ _).keeps (State.addCore_bus _ _ _) true⟩⟩
  · cases o <;> cases h
    rfl
  · obtain ⟨htemp, hsum, hcarry, hsigned, hsign, hzn⟩ :=
      Added.fetch sbcCarry_eq (~~~s.operandValue o) o s (s.crosses o && true)
    have hm := (s.operandValue o).isLt
    have hc := (s.flag .c).toNat_le
    have hnot : (~~~s.operandValue o).toNat = 255 - (s.operandValue o).toNat := BitVec.toNat_not
    have hmsb : (~~~s.operandValue o).msb = !(s.operandValue o).msb := BitVec.msb_not
    rw [hnot] at htemp hsum hcarry
    rw [toInt_not] at hsigned
    rw [hmsb] at hsign
    refine ⟨htemp, hsum.trans ?_, ?_, hcarry.trans (decide_eq_decide.mpr ?_), hsigned.trans (decide_eq_decide.mpr ?_),
      hsign.trans ?_, hzn, by simp⟩
    · omega
    · rw [htemp, hcarry]
    · omega
    · omega
    · cases s.a.msb <;> cases (s.operandValue o).msb <;> rfl

/-- Settles O27: the two sums of O25 and O26, with A and the carry of the one in the other. -/
theorem adcThenSbcLaw : Obligations.AdcThenSbcLaw := by
  intro o o' s t v viaEB ht hva hm
  obtain ⟨-, hadc⟩ := adcAddsWithCarry
  obtain ⟨-, -, hsbc⟩ := sbcSubtractsWithBorrow
  obtain ⟨t', ht', ⟨-, hta, htc, -⟩, -⟩ := hadc o s
  obtain rfl : t' = t := by simpa [ht'] using ht
  obtain ⟨u, hu, ⟨-, hua, -⟩, -⟩ := hsbc viaEB o' v
  rw [hva, hm, hta] at hua
  have hM := (s.operandValue o).isLt
  have ha := s.a.isLt
  have hc := (s.flag .c).toNat_le
  have hc1 := (t'.flag .c).toNat_le
  refine ⟨u, hu, fun hvc => ?_, fun hsc hvc => ?_⟩
  · rw [hvc] at hua
    rw [← BitVec.toNat_inj]
    omega
  · apply BitVec.eq_of_toNat_eq
    rw [hua, hsc, hvc]
    simp only [Bool.toNat_true, Bool.toNat_false]
    omega

/-! ### AND, ORA, EOR -/

/-- An operation that puts `f A M` into A, with its Z and N (R163 to R165). -/
theorem logic_of_setAccumulator {i : Operand → Instr} {f : Byte → Byte → Byte}
    (he : ∀ o s, exec (i o) s =
      .next (s.runOperation o true fun u => let u := u.fetch o; u.setAccumulator (f u.a u.fetched))) : Logic i f := by
  intro o s
  have ht : exec (i o) s =
      .next ((((s.address o).fetch o).setAccumulator (f s.a (s.operandValue o))).finish (s.crosses o && true)) := by
    rw [he, State.runOperation_fetch o true (fun m u => u.setAccumulator (f u.a m))]
    simp only [State.fetch_a, State.address_a]
  exact ⟨_, ht, rfl, .of_eq (by simp [State.setAccumulator_flag, State.setAccumulator_a])
    (by simp [State.setAccumulator_flag, State.setAccumulator_a]), by simp,
    (Writes.setAccumulator _ _).keeps (State.setAccumulator_bus _ _) true⟩

/-- Settles O28: each of the three is `setAccumulator` after `fetch()`. -/
theorem logicOperations : Obligations.LogicOperations :=
  ⟨.of_opcode, .of_opcode, .of_opcode, logic_of_setAccumulator fun _ _ => rfl, logic_of_setAccumulator fun _ _ => rfl,
    logic_of_setAccumulator fun _ _ => rfl⟩

/-! ### BIT -/

@[simp] theorem lo_zext16 (v : Byte) : lo (zext16 v) = v := by
  apply BitVec.eq_of_toNat_eq
  rw [lo_toNat, zext16_toNat, Nat.mod_eq_of_lt v.isLt]

/-- Bit 7 of a byte as a number (R166). -/
theorem getElem_seven_eq_decide (m : Byte) : m[7] = decide (128 ≤ m.toNat) :=
  (BitVec.msb_eq_getLsbD_last m).symm.trans (BitVec.msb_eq_decide m)

/-- Bit 6 of a byte as a number (R166). -/
theorem getElem_six_eq_decide (m : Byte) : m[6] = decide (m.toNat / 64 % 2 = 1) := Nat.testBit_eq_decide_div_mod_eq

/-- Settles O29: bits 7 and 6 of M in numbers. -/
theorem bitTestsMemory : Obligations.BitTestsMemory := by
  refine ⟨.of_opcode, fun o s => ⟨_, rfl, ?_, ?_, ?_, ?_, ?_, (Writes.bitTest _).keeps (State.bitTest_bus _) false⟩⟩
  · simp [State.runOperation_eq, State.bitTest_flag, Bool.beq_eq_decide_eq]
  · simp [State.runOperation_eq, State.bitTest_flag, getElem_seven_eq_decide]
  · simp [State.runOperation_eq, State.bitTest_flag, getElem_six_eq_decide]
  · simp [State.runOperation_eq, State.bitTest]
  · simp [State.runOperation_eq]

/-! ### CMP, CPX, CPY -/

theorem compareCarry_eq (r m : Byte) : compareCarry r m = decide (m.toNat ≤ r.toNat) := rfl

theorem compareTemp_toNat (r m : Byte) : (compareTemp r m).toNat = (r.toNat + (65536 - m.toNat)) % 65536 := by
  rw [compareTemp, BitVec.toNat_sub, zext16_toNat, zext16_toNat, Nat.add_comm]

/-- The low byte of the difference is the difference of the bytes (R167). -/
theorem lo_compareTemp (r m : Byte) : lo (compareTemp r m) = r - m := by
  have := m.isLt
  apply BitVec.eq_of_toNat_eq
  rw [lo_toNat, compareTemp_toNat, BitVec.toNat_sub]
  omega

/-- An operation that compares a register with M (R167 to R169). -/
theorem compare_of_fetch {i : Operand → Instr} {pays : Bool} {r : State → Byte} (hr : ∀ o s, r (s.address o) = r s)
    (he : ∀ o s, exec (i o) s = .next (s.runOperation o pays fun u => (u.fetch o).compare (r u))) : Compare i pays r := by
  intro o s
  have ht := he o s
  rw [State.runOperation_eq, hr] at ht
  refine ⟨_, ht, ?_, .of_eq ?_ ?_, ?_, ?_, (Writes.compare _ _).keeps (State.compare_bus _ _) pays⟩
  · simp [State.compare_flag, compareCarry_eq]
  · simp [State.compare_flag, lo_compareTemp]
  · simp [State.compare_flag, lo_compareTemp]
  · simp [State.compare_temp, compareTemp_toNat]
  · simp

/-- Settles O30: each of the three is `State.compare` after `fetch()`. -/
theorem compareInstructions : Obligations.CompareInstructions :=
  ⟨.of_opcode, .of_opcode, .of_opcode, compare_of_fetch State.address_a fun _ _ => rfl,
    compare_of_fetch State.address_x fun _ _ => rfl, compare_of_fetch State.address_y fun _ _ => rfl⟩

end Sys2Proof.Machine
end

section
/-! The flag D (10_state.md R30; 41_alu_arith_logic.md R160): an operation that neither writes D nor pushes P does the same whatever
D is, and leaves D as it was. -/

namespace Sys2Proof.Machine

/-! ### Replacing a flag before and after an operation -/

theorem putFlag_comm {f g : Flag} (h : f ≠ g) (v w : Bool) (p : Byte) :
    putFlag f v (putFlag g w p) = putFlag g w (putFlag f v p) := by
  refine status_ext fun k => ?_
  simp only [getFlag_putFlag]
  by_cases hf : k = f
  · rw [if_pos hf, if_pos hf, if_neg (hf ▸ h)]
  · rw [if_neg hf, if_neg hf]

theorem State.setFlag_comm {f g : Flag} (h : f ≠ g) (v w : Bool) (s : State) :
    (s.setFlag g w).setFlag f v = (s.setFlag f v).setFlag g w :=
  congrArg (fun p => { s with p := p }) (putFlag_comm h v w s.p)

/-- `f` does the same whatever D is, and leaves D as it was. -/
def DecimalBlind (f : State → State) : Prop := ∀ (v : Bool) (s : State), f (s.setFlag .d v) = (f s).setFlag .d v

theorem DecimalBlind.andThen {f g : State → State} (hf : DecimalBlind f) (hg : DecimalBlind g) :
    DecimalBlind fun s => g (f s) := by
  intro v s
  simp only
  rw [hf, hg]

/-- An operation that neither reads nor writes P. -/
theorem DecimalBlind.of_setP {f : State → State} (h : ∀ q s, f (s.setP q) = (f s).setP q) : DecimalBlind f := by
  intro v s
  have hself : f s = (f s).setP s.p := h s.p s
  calc f (s.setP (putFlag .d v s.p)) = (f s).setP (putFlag .d v s.p) := h _ s
    _ = ((f s).setP s.p).setFlag .d v := rfl
    _ = (f s).setFlag .d v := by rw [← hself]

/-! ### The operations of an instruction -/

theorem DecimalBlind.setFlag {f : Flag} (hf : f ≠ .d) (w : Bool) : DecimalBlind (State.setFlag f w) :=
  fun v s => State.setFlag_comm hf w v s

theorem DecimalBlind.nz (r : Byte) : DecimalBlind (State.nz r) :=
  (DecimalBlind.setFlag (by decide) (r == 0)).andThen (.setFlag (by decide) r.msb)

/-- Z and N from a byte that does not depend on P, after an operation that neither reads nor writes P. -/
theorem DecimalBlind.nz_of_setP {f : State → State} {r : State → Byte} (hf : ∀ q s, f (s.setP q) = (f s).setP q)
    (hr : ∀ q s, r (s.setP q) = r s) : DecimalBlind fun s => (f s).nz (r s) := by
  intro v s
  have hbyte : r (s.setFlag .d v) = r s := hr _ s
  simp only [hbyte]
  exact ((DecimalBlind.of_setP hf).andThen (.nz (r s))) v s

theorem DecimalBlind.setTemp (t : Addr) : DecimalBlind (State.setTemp t) := .of_setP fun _ _ => rfl

theorem DecimalBlind.address (o : Operand) : DecimalBlind (State.address o) := .of_setP fun q s => by cases o <;> rfl

theorem DecimalBlind.fetch (o : Operand) : DecimalBlind (State.fetch o) := .of_setP fun q s => by cases o <;> rfl

theorem DecimalBlind.writeBack (o : Operand) (r : Byte) : DecimalBlind (State.writeBack o r) :=
  .of_setP fun q s => by cases o <;> rfl

theorem DecimalBlind.finish (extra : Bool) : DecimalBlind (State.finish extra) :=
  (DecimalBlind.of_setP fun _ _ => rfl : DecimalBlind (State.addCycles (if extra then 1 else 0))).andThen
    (.setFlag (by decide) true)

/-- The carry is the one flag that ADC, SBC, ROL and ROR read. -/
theorem State.setFlag_d_flag_c (v : Bool) (s : State) : (s.setFlag .d v).flag .c = s.flag .c := State.setFlag_flag .c .d v s

theorem DecimalBlind.addCore (m : Byte) (c : Addr → Bool) : DecimalBlind (State.addCore m c) := by
  intro v s
  have h (t : Addr) (b b' : Bool) (r : Byte) :
      DecimalBlind fun u => ((((u.setTemp t).setFlag .c b).setFlag .v b').nz r).setA r :=
    ((((DecimalBlind.setTemp t).andThen (.setFlag (by decide) b)).andThen (.setFlag (by decide) b')).andThen (.nz r)).andThen
      (.of_setP fun _ _ => rfl)
  simp only [State.addCore, State.setFlag_d_flag_c, State.setFlag_a]
  exact h _ _ _ _ v s

theorem DecimalBlind.compare (r : Byte) : DecimalBlind (State.compare r) := by
  intro v s
  have h (t : Addr) (b : Bool) : DecimalBlind fun u => ((u.setTemp t).setFlag .c b).nz (lo t) :=
    ((DecimalBlind.setTemp t).andThen (.setFlag (by decide) b)).andThen (.nz (lo t))
  exact h (compareTemp r s.fetched) (compareCarry r s.fetched) v s

theorem DecimalBlind.bitTest : DecimalBlind State.bitTest := by
  intro v s
  have h (t : Addr) (b b' b'' : Bool) :
      DecimalBlind fun u => (((u.setTemp t).setFlag .z b).setFlag .n b').setFlag .v b'' :=
    (((DecimalBlind.setTemp t).andThen (.setFlag (by decide) b)).andThen (.setFlag (by decide) b')).andThen
      (.setFlag (by decide) b'')
  simp only [State.bitTest, State.setFlag_a, State.setFlag_fetched]
  exact h _ _ _ _ v s

theorem DecimalBlind.setAccumulator (r : Byte) : DecimalBlind (State.setAccumulator r) :=
  .nz_of_setP (f := State.setA r) (fun _ _ => rfl) fun _ _ => rfl

theorem DecimalBlind.countMemory (t : Addr) : DecimalBlind (State.countMemory t) :=
  .nz_of_setP (f := fun s => (s.setTemp t).write s.addrAbs (lo t)) (fun _ _ => rfl) fun _ _ => rfl

theorem DecimalBlind.shiftCore (o : Operand) (b : Bool) (t : Addr) : DecimalBlind (State.shiftCore o b t) :=
  (((DecimalBlind.setFlag (by decide) b).andThen (.setTemp t)).andThen (.nz (lo t))).andThen (.writeBack o (lo t))

/-- A branch on a flag other than D. -/
theorem DecimalBlind.branch {f : Flag} (hf : f ≠ .d) (b : Bool) : DecimalBlind fun s => s.branch (s.flag f == b) := by
  intro v s
  have hflag : (s.setFlag .d v).flag f = s.flag f := (State.setFlag_flag f .d v s).trans (if_neg hf)
  simp only [hflag]
  cases s.flag f == b <;> rfl

/-- Every instruction but those that write D or push P runs an operation that is blind to D. -/
theorem exec_operation_decimalBlind {i : Instr} (h : i.op ∉ [Op.cld, .sed, .plp, .rti, .php, .brk]) :
    ∃ (hint : Bool) (f : State → State), (∀ s, exec i s = .next (s.runOperation i.operand hint f)) ∧ DecimalBlind f := by
  cases i
  case cld | sed | plp | rti | php | brk => simp [Instr.op] at h
  all_goals refine ⟨_, _, fun _ => rfl, ?_⟩
  case adc o | sbc _ o =>
    intro v s
    simp only [DecimalBlind.fetch o v s, State.setFlag_fetched]
    exact DecimalBlind.addCore _ _ v _
  case bit o => exact (DecimalBlind.fetch o).andThen .bitTest
  case cmp o | cpx o | cpy o =>
    intro v s
    simp only [DecimalBlind.fetch o v s]
    exact DecimalBlind.compare _ v _
  case asl o | lsr o | rol o | ror o =>
    intro v s
    simp only [DecimalBlind.fetch o v s, State.setFlag_d_flag_c, State.setFlag_fetched]
    exact DecimalBlind.shiftCore _ _ _ v _
  case and o | ora o | eor o =>
    intro v s
    simp only [DecimalBlind.fetch o v s, State.setFlag_a, State.setFlag_fetched]
    exact DecimalBlind.setAccumulator _ v _
  case inc o | dec o =>
    intro v s
    simp only [DecimalBlind.fetch o v s, State.setFlag_fetched]
    exact DecimalBlind.countMemory _ v _
  case lda o =>
    exact (DecimalBlind.fetch o).andThen (g := fun u => (u.setA u.fetched).nz u.fetched)
      (.nz_of_setP (fun _ _ => rfl) fun _ _ => rfl)
  case ldx o =>
    exact (DecimalBlind.fetch o).andThen (g := fun u => (u.setX u.fetched).nz u.fetched)
      (.nz_of_setP (fun _ _ => rfl) fun _ _ => rfl)
  case ldy o =>
    exact (DecimalBlind.fetch o).andThen (g := fun u => (u.setY u.fetched).nz u.fetched)
      (.nz_of_setP (fun _ _ => rfl) fun _ _ => rfl)
  case inx | iny | dex | dey | tax | tay | txa | tya | tsx | pla => exact .nz_of_setP (fun _ _ => rfl) fun _ _ => rfl
  case bpl | bmi | bvc | bvs | bcc | bcs | bne | beq => exact .branch (by decide) _
  case clc | sec | cli | sei | clv => exact .setFlag (by decide) _
  -- The others neither read nor write P.
  all_goals exact .of_setP fun _ _ => rfl

/-- Settles O31: the mode, the operation and the end of the instruction are each blind to D, and the hint reads no flag. -/
theorem decimalFlagHasNoEffect : Obligations.DecimalFlagHasNoEffect := by
  intro i s t v hop ht
  obtain ⟨hint, f, he, hf⟩ := exec_operation_decimalBlind hop
  obtain rfl : s.runOperation i.operand hint f = t := by simpa [he] using ht
  have hcross : (s.setFlag .d v).crosses i.operand = s.crosses i.operand := by cases i.operand <;> rfl
  rw [he, State.runOperation_eq, State.runOperation_eq, hcross]
  exact congrArg _ ((((DecimalBlind.address i.operand).andThen hf).andThen (.finish _)) v s)

end Sys2Proof.Machine
end

section
/-! The opcode of an instruction without operand bytes (30_encoding.md R92, R95). -/

namespace Sys2Proof.Machine

/-- A well-formed instruction whose encoding is one byte: that byte decodes to it. -/
theorem OneByteOpcode.of_encode {b : Byte} {cycles : Nat} {i : Instr} (hwf : i.wf defaultParams = true := by rfl)
    (henc : encode i = [b] := by rfl) (hcycles : (tableRow b).baseCycles = cycles := by rfl) : OneByteOpcode b cycles i := by
  refine ⟨fun rest => ?_, hcycles⟩
  obtain ⟨b', henc', -, hdec⟩ := encode_eq_cons hwf
  rw [henc] at henc'
  obtain ⟨rfl, hbytes⟩ := List.cons.inj henc'
  simpa [← hbytes] using hdec rest

end Sys2Proof.Machine
end

section
/-! Operations that write a register by name, and the instructions in IMP mode, which run one without a `fetch()`. -/

namespace Sys2Proof.Machine

/-- Writing a register by its name. -/
def State.setReg : Reg → Byte → State → State
  | .a => State.setA
  | .x => State.setX
  | .y => State.setY
  | .sp => State.setSp

@[simp] theorem State.setReg_reg (r q : Reg) (v : Byte) (s : State) :
    (s.setReg r v).reg q = if q = r then v else s.reg q := by
  cases r <;> cases q <;> rfl

@[simp] theorem State.setReg_bus (r : Reg) (v : Byte) (s : State) : (s.setReg r v).bus = s.bus := by cases r <;> rfl

@[simp] theorem State.nz_reg (v : Byte) (s : State) (r : Reg) : (s.nz v).reg r = s.reg r := by cases r <;> rfl

@[simp] theorem State.finish_reg (extra : Bool) (s : State) (r : Reg) : (s.finish extra).reg r = s.reg r := by cases r <;> rfl

theorem Writes.setReg_nz (r : Reg) (v : Byte) (u : State) : Writes [r] [.z, .n] [] u ((u.setReg r v).nz v) where
  regs q hq := by simp [List.mem_singleton.not.mp hq]
  flags f hf := by cases r <;> simp_all [State.setReg]
  latches l _ := by cases r <;> cases l <;> rfl
  pc := by cases r <;> rfl
  countdown := by cases r <;> rfl
  opcode := by cases r <;> rfl
  clockCount := by cases r <;> rfl
  boot := by cases r <;> rfl

/-- Everything kept by an instruction in IMP mode whose operation writes no latch and makes no access; its mode writes `fetched`
(R130). -/
theorem Writes.keeps_imp {regs : List Reg} {flags : List Flag} {s w : State} (h : Writes regs flags [] (s.address .imp) w)
    (hbus : w.bus = s.bus) (hint : Bool) :
    Sequential .imp hint s (w.finish (s.crosses .imp && hint)) ∧ SameMemory s (w.finish (s.crosses .imp && hint)) ∧
      Frame regs flags [.fetched] s (w.finish (s.crosses .imp && hint)) := by
  obtain ⟨hseq, hmem, hframe⟩ := Writes.keeps (o := .imp) h hbus hint
  exact ⟨hseq, hmem, { hframe with latches := fun l hl => hframe.latches l (by simpa [modeLatch] using hl) }⟩

end Sys2Proof.Machine
end

section
/-! Shifts, rotates, increments and decrements in numbers (42_shift_incdec.md). -/

namespace Sys2Proof.Machine

open Sys2Proof.Shapes

/-! ### What each shared operation writes -/

theorem Writes.shiftCore (o : Operand) (c : Bool) (t : Addr) (u : State) :
    Writes [.a] [.c, .z, .n] [.temp] u (u.shiftCore o c t) where
  regs r hr := by cases r <;> simp_all [State.reg]
  flags f hf := by cases f <;> simp_all [State.shiftCore_flag]
  latches l hl := by cases l <;> simp_all [State.latch]
  pc := State.shiftCore_pc o c t u
  countdown := State.shiftCore_countdown o c t u
  opcode := State.shiftCore_opcode o c t u
  clockCount := State.shiftCore_clockCount o c t u
  boot := State.shiftCore_boot o c t u

theorem Writes.countMemory (t : Addr) (u : State) : Writes [] [.z, .n] [.temp] u (u.countMemory t) where
  regs r _ := by cases r <;> simp [State.reg]
  flags f hf := by cases f <;> simp_all [State.countMemory_flag]
  latches l hl := by cases l <;> simp_all [State.latch]
  pc := State.countMemory_pc t u
  countdown := State.countMemory_countdown t u
  opcode := State.countMemory_opcode t u
  clockCount := State.countMemory_clockCount t u
  boot := State.countMemory_boot t u

theorem State.shiftCore_temp (o : Operand) (c : Bool) (t : Addr) (s : State) : (s.shiftCore o c t).temp = t := by
  simp [State.shiftCore]

theorem State.countMemory_temp (t : Addr) (s : State) : (s.countMemory t).temp = t := rfl

/-- An operation that writes one byte at the effective address after `fetch()` stores it there and nothing elsewhere. -/
theorem stored_at_target {o : Operand} {s w : State} {v : Byte}
    (hbus : w.bus = ((s.address o).fetch o).bus.write (s.target o) v) (extra : Bool) :
    Stored (s.target o) v s (w.finish extra) ∧ MemoryBut [s.target o] s (w.finish extra) := by
  have hfetch := memoryBut_fetch [s.target o] o s
  exact ⟨.write hfetch hbus, hfetch.write hbus (List.mem_singleton_self _)⟩

/-! ### The 16-bit results and the carries -/

theorem lo_eq_ofNat (t : Addr) : lo t = BitVec.ofNat 8 t.toNat := by
  apply BitVec.eq_of_toNat_eq
  rw [lo_toNat, BitVec.toNat_ofNat]

theorem carryIn_toNat (c : Bool) : (carryIn c).toNat = c.toNat := by cases c <;> rfl

theorem aslTemp_toNat (m : Byte) : (aslTemp m).toNat = 2 * m.toNat := by
  have := m.isLt
  rw [aslTemp, BitVec.toNat_shiftLeft, zext16_toNat, Nat.shiftLeft_eq]
  omega

theorem lsrTemp_toNat (m : Byte) : (lsrTemp m).toNat = m.toNat / 2 := by
  rw [lsrTemp, BitVec.toNat_ushiftRight, zext16_toNat, Nat.shiftRight_eq_div_pow]

/-- The carry enters at bit 0, which the shift has left 0, so that `|` adds it (R203). -/
theorem rolTemp_toNat (c : Bool) (m : Byte) : (rolTemp c m).toNat = 2 * m.toNat + c.toNat := by
  have hshift : (zext16 m <<< 1).toNat = m.toNat <<< 1 := by
    rw [Nat.shiftLeft_eq, Nat.mul_comm]
    exact aslTemp_toNat m
  rw [rolTemp, BitVec.toNat_or, hshift, carryIn_toNat, ← Nat.shiftLeft_add_eq_or_of_lt c.toNat_lt, Nat.shiftLeft_eq]
  omega

/-- The carry enters at bit 7, which the shift has left 0, so that `|` adds it (R204). -/
theorem rorTemp_toNat (c : Bool) (m : Byte) : (rorTemp c m).toNat = m.toNat / 2 + 128 * c.toNat := by
  have hhalf : m.toNat / 2 < 2 ^ 7 := by
    have := m.isLt
    omega
  have hcarry : (carryIn c <<< 7).toNat = c.toNat <<< 7 := by cases c <;> rfl
  have hshift : (zext16 m >>> 1).toNat = m.toNat / 2 := lsrTemp_toNat m
  rw [rorTemp, BitVec.toNat_or, hcarry, hshift, ← Nat.shiftLeft_add_eq_or_of_lt hhalf, Nat.shiftLeft_eq]
  omega

theorem incTemp_toNat (m : Byte) : (incTemp m).toNat = (m.toNat + 1) % 65536 := by
  rw [incTemp, BitVec.toNat_add, zext16_toNat]
  rfl

theorem decTemp_toNat (m : Byte) : (decTemp m).toNat = (m.toNat + 65535) % 65536 := by
  rw [decTemp, BitVec.toNat_sub, zext16_toNat, Nat.add_comm]
  rfl

/-- Bit 8 of twice M is bit 7 of M (R201). -/
theorem aslTemp_carry (m : Byte) : (aslTemp m).getLsbD 8 = decide (128 ≤ m.toNat) := by
  have := m.isLt
  rw [BitVec.getLsbD, aslTemp_toNat, Nat.testBit_eq_decide_div_mod_eq, decide_eq_decide]
  omega

/-- Bit 0 of a byte as a number (R202, R204). -/
theorem getLsbD_zero_eq_decide (m : Byte) : m.getLsbD 0 = decide (m.toNat % 2 = 1) := Nat.testBit_zero ..

/-! ### ASL, LSR, ROL, ROR -/

/-- An operation that shifts M, the carry from before it among its inputs (R200 to R204). -/
theorem shift_of_shiftCore {i : Operand → Instr} {result : Nat → Nat → Nat} {carry : Nat → Bool}
    {temp : Bool → Byte → Addr} {carryOut : Byte → Bool} (htemp : ∀ c m, (temp c m).toNat = result c.toNat m.toNat)
    (hcarry : ∀ m, carryOut m = carry m.toNat)
    (he : ∀ o s, exec (i o) s = .next (s.runOperation o false fun u =>
      let u := u.fetch o; u.shiftCore o (carryOut u.fetched) (temp (u.flag .c) u.fetched))) : Shift i result carry := by
  intro o s
  have ht := he o s
  rw [State.runOperation_fetch o false (fun m u => u.shiftCore o (carryOut m) (temp (u.flag .c) m)), State.fetch_flag,
    State.address_flag] at ht
  have hlo : lo (temp (s.flag .c) (s.operandValue o)) = BitVec.ofNat 8 (result (s.flag .c).toNat (s.operandValue o).toNat) := by
    rw [lo_eq_ofNat, htemp]
  refine ⟨_, ht, ⟨?_, .of_eq ?_ ?_, fun himp => ?_, fun himp => ?_⟩, ?_, by simp,
    (Writes.shiftCore _ _ _ _).sequential false, (Writes.shiftCore _ _ _ _).frame _⟩
  · simp [State.shiftCore_temp, htemp]
  · simp [State.shiftCore_flag, hlo]
  · simp [State.shiftCore_flag, hlo]
  · subst himp
    exact ⟨hlo, .of_bus rfl⟩
  · obtain ⟨ha, hbus⟩ := State.shiftCore_memory (carryOut (s.operandValue o)) (temp (s.flag .c) (s.operandValue o))
      ((s.address o).fetch o) himp
    rw [hlo, State.fetch_addrAbs, State.address_addrAbs] at hbus
    exact ⟨by simp [ha], stored_at_target hbus _⟩
  · simp [State.shiftCore_flag, hcarry]

/-- Settles O32: each of the two is `shiftCore` on its own result and carry. -/
theorem shiftInstructions : Obligations.ShiftInstructions :=
  ⟨.of_opcode, .of_opcode,
    shift_of_shiftCore (temp := fun _ m => aslTemp m) (fun _ => aslTemp_toNat) aslTemp_carry fun _ _ => rfl,
    shift_of_shiftCore (temp := fun _ m => lsrTemp m) (fun _ => lsrTemp_toNat) getLsbD_zero_eq_decide fun _ _ => rfl⟩

/-- Settles O33: like O32, with the carry from before the instruction in the result. -/
theorem rotateInstructions : Obligations.RotateInstructions :=
  ⟨.of_opcode, .of_opcode, shift_of_shiftCore rolTemp_toNat getElem_seven_eq_decide fun _ _ => rfl,
    shift_of_shiftCore rorTemp_toNat getLsbD_zero_eq_decide fun _ _ => rfl⟩

/-! ### INC, DEC -/

/-- An operation that counts M in memory (R205, R206). -/
theorem count_of_countMemory {i : Operand → Instr} {step : Nat} {temp : Byte → Addr}
    (htemp : ∀ m, (temp m).toNat = (m.toNat + step) % 65536)
    (he : ∀ o s, exec (i o) s = .next (s.runOperation o false fun u => let u := u.fetch o; u.countMemory (temp u.fetched)))
    (haccesses : ∀ (o : Operand) (s : State), s.instructionAccesses (i o) =
      s.modeAccesses o ++ (s.fetchAccesses o ++ [.write (s.target o) (lo (temp (s.operandValue o)))])) : Count i step := by
  intro o s
  have ht := he o s
  rw [State.runOperation_fetch o false (fun m u => u.countMemory (temp m))] at ht
  have hlo : lo (temp (s.operandValue o)) = BitVec.ofNat 8 (((s.operandValue o).toNat + step) % 65536) := by
    rw [lo_eq_ofNat, htemp]
  have hbus := State.countMemory_bus (temp (s.operandValue o)) ((s.address o).fetch o)
  rw [hlo, State.fetch_addrAbs, State.address_addrAbs] at hbus
  obtain ⟨hstored, hmemory⟩ := stored_at_target hbus (s.crosses o && false)
  refine ⟨_, ht, ⟨?_, .of_eq ?_ ?_, hstored, ?_⟩, hmemory, by simp, (Writes.countMemory _ _).sequential false,
    (Writes.countMemory _ _).frame _⟩
  · simp [State.countMemory_temp, htemp]
  · simp [State.countMemory_flag, hlo]
  · simp [State.countMemory_flag, hlo]
  · rw [haccesses, hlo, List.append_assoc]

/-- Settles O34: each of the two is `countMemory` on its own result. -/
theorem memoryCounts : Obligations.MemoryCounts :=
  ⟨.of_opcode, .of_opcode, count_of_countMemory incTemp_toNat (fun _ _ => rfl) fun _ _ => rfl,
    count_of_countMemory decTemp_toNat (fun _ _ => rfl) fun _ _ => rfl⟩

/-! ### INX, INY, DEX, DEY -/

/-- An operation in IMP mode that replaces a register by the next value, with its Z and N (R207 to R210). -/
theorem countRegister_of_setReg {i : Instr} {r : Reg} {step : Nat} {next : Byte → Byte}
    (hnext : ∀ v, (next v).toNat = (v.toNat + step) % 256)
    (he : ∀ s, exec i s = .next (s.runOperation .imp false fun u => (u.setReg r (next (u.reg r))).nz (next (u.reg r))))
    (haccesses : ∀ s : State, s.instructionAccesses i = []) : CountRegister i r step := by
  intro s
  have hreg : (s.address .imp).reg r = s.reg r := State.reg_fetch_address .imp s r
  have ht := he s
  rw [State.runOperation_eq, hreg] at ht
  refine ⟨_, ht, ?_, .of_eq ?_ ?_, ?_, haccesses s, (Writes.setReg_nz r _ _).keeps_imp (by simp) false⟩
  · simp [hnext]
  · simp
  · simp
  · cases r <;> rfl

theorem sub_one_toNat (v : Byte) : (v - 1).toNat = (v.toNat + 255) % 256 := by
  rw [BitVec.toNat_sub, Nat.add_comm]
  rfl

/-- Settles O35: each of the four writes its register by name, one more or one less modulo 256. -/
theorem registerCounts : Obligations.RegisterCounts :=
  ⟨.of_encode, .of_encode, .of_encode, .of_encode,
    countRegister_of_setReg (BitVec.toNat_add · 1) (fun _ => rfl) fun _ => rfl,
    countRegister_of_setReg (BitVec.toNat_add · 1) (fun _ => rfl) fun _ => rfl,
    countRegister_of_setReg sub_one_toNat (fun _ => rfl) fun _ => rfl,
    countRegister_of_setReg sub_one_toNat (fun _ => rfl) fun _ => rfl⟩

end Sys2Proof.Machine
end

section
/-! Loads, stores and register transfers (43_load_store_transfer.md). -/

namespace Sys2Proof.Machine

open Sys2Proof.Shapes

theorem State.reg_address (o : Operand) (s : State) (r : Reg) : (s.address o).reg r = s.reg r := by
  cases r <;> simp [State.reg]

/-! ### Loads -/

/-- An operation that puts M into a register, with its Z and N (R240 to R242). -/
theorem load_of_setReg {i : Operand → Instr} {r : Reg}
    (he : ∀ o s, exec (i o) s =
      .next (s.runOperation o true fun u => let u := u.fetch o; (u.setReg r u.fetched).nz u.fetched)) : Load i r := by
  intro o s
  have ht := he o s
  rw [State.runOperation_fetch o true (fun m u => (u.setReg r m).nz m)] at ht
  refine ⟨_, ht, ?_, .of_eq ?_ ?_, ?_, (Writes.setReg_nz r _ _).keeps (by simp) true⟩
  · simp
  · simp
  · simp
  · cases r <;> simp [State.setReg]

/-- Settles O36: each of the three writes its register by name after `fetch()`. -/
theorem loadInstructions : Obligations.LoadInstructions :=
  ⟨.of_opcode, .of_opcode, .of_opcode, load_of_setReg fun _ _ => rfl, load_of_setReg fun _ _ => rfl,
    load_of_setReg fun _ _ => rfl⟩

/-! ### Stores -/

theorem State.latch_fetch {l : Latch} (h : l ≠ .fetched) (o : Operand) (s : State) : (s.fetch o).latch l = s.latch l := by
  cases l with
  | fetched => exact absurd rfl h
  | temp | addrAbs | addrRel => simp [State.latch]

/-- The mode writes its own latch and no other (R130 to R141). -/
theorem State.latch_address {o : Operand} {l : Latch} (hmode : l ≠ modeLatch o) (s : State) :
    (s.address o).latch l = s.latch l := by
  rcases eq_or_ne l .fetched with rfl | hl
  · cases o with
    | imp => exact absurd rfl hmode
    | imm _ | zp0 _ | zpx _ | zpy _ | rel _ | abs _ | abx _ | aby _ | ind _ | izx _ | izy _ =>
      simp [State.latch, State.address_fetched]
  · exact (State.latch_fetch hl o _).symm.trans (State.latch_fetch_address hl hmode s)

/-- Seen from after a `fetch()` that is not made, such an operation writes the latch `fetched` too. -/
theorem Writes.fetch {regs : List Reg} {flags : List Flag} {latches : List Latch} {u w : State}
    (h : Writes regs flags latches u w) (o : Operand) : Writes regs flags (.fetched :: latches) (u.fetch o) w where
  regs r hr := by cases r <;> simpa [State.reg] using h.regs _ hr
  flags f hf := by simp [h.flags f hf]
  latches l hl := by
    simp only [List.mem_cons, not_or] at hl
    obtain ⟨hfetched, hl⟩ := hl
    exact (h.latches l hl).trans (State.latch_fetch hfetched o u).symm
  pc := by simp [h.pc]
  countdown := by simp [h.countdown]
  opcode := by simp [h.opcode]
  clockCount := by simp [h.clockCount]
  boot := by simp [h.boot]

/-- PC, the countdown and the frame of an instruction whose operation makes no `fetch()`, so that the latch `fetched` is the
mode's alone (R121, R123). -/
theorem Writes.keeps_without_fetch {regs : List Reg} {flags : List Flag} {latches : List Latch} {o : Operand} {s w : State}
    (h : Writes regs flags latches (s.address o) w) (hint : Bool) :
    Sequential o hint s (w.finish (s.crosses o && hint)) ∧
      Frame regs flags (latches ++ [modeLatch o]) s (w.finish (s.crosses o && hint)) := by
  refine ⟨(h.fetch o).sequential hint, { (h.fetch o).frame _ with latches := fun l hl => ?_ }⟩
  simp only [List.mem_append, List.mem_singleton, not_or] at hl
  obtain ⟨hl, hmode⟩ := hl
  exact (h.latches l hl).trans (State.latch_address hmode s)

theorem Writes.write (a : Addr) (v : Byte) (u : State) : Writes [] [] [] u (u.write a v) where
  regs r _ := by cases r <;> rfl
  flags _ _ := rfl
  latches l _ := by cases l <;> rfl
  pc := rfl
  countdown := rfl
  opcode := rfl
  clockCount := rfl
  boot := rfl

/-- An operation that writes a register to the effective address, which it does not read (R243 to R245). -/
theorem store_of_write {i : Operand → Instr} {r : Reg}
    (he : ∀ o s, exec (i o) s = .next (s.runOperation o false fun u => u.write u.addrAbs (u.reg r)))
    (haccesses : ∀ (o : Operand) (s : State), s.instructionAccesses (i o) =
      s.modeAccesses o ++ [.write (s.target o) (s.reg r)]) : Store i r := by
  intro o s
  have hmode := memoryBut_address [s.target o] o s
  have ht := he o s
  rw [State.runOperation_eq, State.address_addrAbs, State.reg_address] at ht
  exact ⟨_, ht, .write hmode rfl, hmode.write rfl (List.mem_singleton_self _), haccesses o s,
    (Writes.write _ _ _).keeps_without_fetch false⟩

/-- Settles O37: each of the three writes its register by name after the mode. -/
theorem storeInstructions : Obligations.StoreInstructions :=
  ⟨.of_opcode, rfl, rfl, rfl, .of_opcode, .of_opcode, store_of_write (fun _ _ => rfl) fun _ _ => rfl,
    store_of_write (fun _ _ => rfl) fun _ _ => rfl, store_of_write (fun _ _ => rfl) fun _ _ => rfl⟩

/-! ### Transfers -/

/-- An operation in IMP mode that copies a register to another, with its Z and N (R246 to R250). -/
theorem transfer_of_setReg {i : Instr} {src dst : Reg}
    (he : ∀ s, exec i s = .next (s.runOperation .imp false fun u => (u.setReg dst (u.reg src)).nz (u.reg src))) :
    Transfer i src dst := by
  intro s
  have ht := he s
  rw [State.runOperation_eq, State.reg_address] at ht
  refine ⟨_, ht, ?_, .of_eq ?_ ?_, ?_, (Writes.setReg_nz dst _ _).keeps_imp (by simp) false⟩
  · simp
  · simp
  · simp
  · cases dst <;> rfl

theorem Writes.setSp (v : Byte) (u : State) : Writes [.sp] [] [] u (u.setSp v) where
  regs r hr := by cases r <;> simp_all [State.reg]
  flags _ _ := rfl
  latches l _ := by cases l <;> rfl
  pc := rfl
  countdown := rfl
  opcode := rfl
  clockCount := rfl
  boot := rfl

/-- Settles O39: five of the six write their register by name with its Z and N; TXS writes S alone. -/
theorem transferInstructions : Obligations.TransferInstructions :=
  ⟨.of_encode, .of_encode, .of_encode, .of_encode, .of_encode, .of_encode, transfer_of_setReg fun _ => rfl,
    transfer_of_setReg fun _ => rfl, transfer_of_setReg fun _ => rfl, transfer_of_setReg fun _ => rfl,
    transfer_of_setReg fun _ => rfl,
    fun s => ⟨_, rfl, rfl, rfl, (Writes.setSp s.x (s.address .imp)).keeps_imp rfl false⟩⟩

end Sys2Proof.Machine
end

section
/-! Operations in sequence, and a frame that names the flag U. -/

namespace Sys2Proof.Machine

/-- Two operations in sequence write what either of them writes. -/
theorem Writes.trans {regs regs' : List Reg} {flags flags' : List Flag} {latches latches' : List Latch} {s u w : State}
    (h : Writes regs flags latches s u) (h' : Writes regs' flags' latches' u w) :
    Writes (regs' ++ regs) (flags' ++ flags) (latches' ++ latches) s w where
  regs r hr := (h'.regs r (hr ∘ List.mem_append_left _)).trans (h.regs r (hr ∘ List.mem_append_right _))
  flags f hf := (h'.flags f (hf ∘ List.mem_append_left _)).trans (h.flags f (hf ∘ List.mem_append_right _))
  latches l hl := (h'.latches l (hl ∘ List.mem_append_left _)).trans (h.latches l (hl ∘ List.mem_append_right _))
  pc := h'.pc.trans h.pc
  countdown := h'.countdown.trans h.countdown
  opcode := h'.opcode.trans h.opcode
  clockCount := h'.clockCount.trans h.clockCount
  boot := h'.boot.trans h.boot

/-- U ends set whatever an operation does to it (R28), so that a frame need not list it. -/
theorem Frame.of_cons_u {regs : List Reg} {flags : List Flag} {latches : List Latch} {s t : State}
    (h : Frame regs (.u :: flags) latches s t) : Frame regs flags latches s t :=
  { h with flags := fun f hf hu => h.flags f (List.not_mem_cons_of_ne_of_not_mem hu hf) hu }

theorem Writes.setFlag (f : Flag) (v : Bool) (u : State) : Writes [] [f] [] u (u.setFlag f v) where
  regs r _ := by cases r <;> rfl
  flags g hg := by simp [List.mem_singleton.not.mp hg]
  latches l _ := by cases l <;> rfl
  pc := rfl
  countdown := rfl
  opcode := rfl
  clockCount := rfl
  boot := rfl

theorem Writes.setP (v : Byte) (u : State) : Writes [] [.u, .c, .z, .i, .d, .b, .v, .n] [] u (u.setP v) where
  regs r _ := by cases r <;> rfl
  flags f hf := by cases f <;> simp at hf
  latches l _ := by cases l <;> rfl
  pc := rfl
  countdown := rfl
  opcode := rfl
  clockCount := rfl
  boot := rfl

theorem Writes.push (v : Byte) (u : State) : Writes [.sp] [] [] u (u.push v) :=
  (Writes.write (stackAddr u.sp) v u).trans (.setSp (u.sp - 1) _)

theorem Writes.pull (u : State) : Writes [.sp] [] [] u u.pull :=
  { Writes.setSp (u.sp + 1) u with }

end Sys2Proof.Machine
end

section
/-! The status byte as a number (10_state.md R27). -/

namespace Sys2Proof.Machine

/-- A flag is its bit of the status byte. -/
theorem getFlag_toNat (f : Flag) (p : Byte) : (getFlag f p).toNat = p.toNat / 2 ^ f.index % 2 :=
  Nat.toNat_testBit ..

theorem toNat_eq_packed (p : Byte) : p.toNat = packed (getFlag · p) := by
  have hp := p.isLt
  simp only [packed, getFlag_toNat, Flag.index]
  omega

/-- The flags that every load takes from the byte are its bits. -/
theorem LoadedFlags.of_getFlag {v : Byte} {flag : Flag → Bool} (h : ∀ f, f ≠ .b → f ≠ .u → flag f = getFlag f v) :
    LoadedFlags v flag := by
  have hbit (f : Flag) (hb : f ≠ .b) (hu : f ≠ .u) : (flag f).toNat = v.toNat / 2 ^ f.index % 2 := by
    rw [h f hb hu, getFlag_toNat]
  exact ⟨by simpa [Flag.index] using hbit .c nofun nofun, hbit .z nofun nofun, hbit .i nofun nofun, hbit .d nofun nofun,
    hbit .v nofun nofun, hbit .n nofun nofun⟩

end Sys2Proof.Machine
end

section
/-! Stack and flag instructions (44_stack_flags.md). -/

namespace Sys2Proof.Machine

open Sys2Proof.Shapes

/-! ### Flags -/

/-- An operation in IMP mode that puts one flag other than U (R284 to R290). -/
theorem flagWrite_of_setFlag {i : Instr} {f : Flag} {v : Bool} (hf : f ≠ .u)
    (he : ∀ s, exec i s = .next (s.runOperation .imp false (State.setFlag f v))) : FlagWrite i f v := by
  intro s
  refine ⟨_, he s, ?_, rfl, (Writes.setFlag f v (s.address .imp)).keeps_imp rfl false⟩
  simp [State.runOperation_eq, hf]

/-- Settles O44: each of the seven puts its flag by name. -/
theorem flagInstructions : Obligations.FlagInstructions :=
  ⟨.of_encode, .of_encode, .of_encode, .of_encode, .of_encode, .of_encode, .of_encode,
    flagWrite_of_setFlag nofun fun _ => rfl, flagWrite_of_setFlag nofun fun _ => rfl,
    flagWrite_of_setFlag nofun fun _ => rfl, flagWrite_of_setFlag nofun fun _ => rfl,
    flagWrite_of_setFlag nofun fun _ => rfl, flagWrite_of_setFlag nofun fun _ => rfl,
    flagWrite_of_setFlag nofun fun _ => rfl⟩

/-! ### Pushes -/

/-- The byte PHP stacks, in numbers: P with B and U set (R281). -/
theorem phpByte_toNat (s : State) : (phpByte s.p).toNat =
    (s.flag .c).toNat + 2 * (s.flag .z).toNat + 4 * (s.flag .i).toNat + 8 * (s.flag .d).toNat + 16 + 32 +
      64 * (s.flag .v).toNat + 128 * (s.flag .n).toNat := by
  simp [toNat_eq_packed (phpByte s.p), packed, getFlag_phpByte, State.flag_eq]

/-- Settles O40: P and the byte PHP stacks are numbers of their flags; each push stores its byte and writes S; U, which PHP
clears, is set again at the end. -/
theorem pushInstructions : Obligations.PushInstructions := by
  have hmem (s : State) : MemoryBut [stackAddr s.sp] s s := .of_bus rfl
  refine ⟨.of_encode, .of_encode, fun s => toNat_eq_packed s.p, fun s => ?_, fun s => ?_⟩
  · exact ⟨_, rfl, .write (hmem s) rfl, (hmem s).push s.a (List.mem_singleton_self _), sub_one_toNat s.sp, rfl,
      (Writes.push s.a (s.address .imp)).keeps_without_fetch false⟩
  · have hwrites := ((Writes.push (phpByte s.p) (s.address .imp)).trans (.setFlag .b false _)).trans (.setFlag .u false _)
    obtain ⟨hseq, hframe⟩ := hwrites.keeps_without_fetch false
    refine ⟨_, rfl, ⟨_, .write (hmem s) rfl, phpByte_toNat s, (getFlag_phpByte · s.p)⟩,
      (hmem s).push (phpByte s.p) (List.mem_singleton_self _), sub_one_toNat s.sp, rfl, ?_, hseq, hframe.of_cons_u⟩
    simp [State.runOperation_eq]

/-! ### Pulls -/

/-- A pull writes nothing (R67). -/
theorem sameMemory_of_pull {s t : State} (hbus : t.bus = s.pull.bus) : SameMemory s t :=
  (MemoryBut.of_bus rfl : SameMemory s s).afterRead hbus

/-- Settles O41: PLA writes S, then A with Z and N; PLP writes S, then every flag, U included. -/
theorem pullInstructions : Obligations.PullInstructions := by
  refine ⟨.of_encode, .of_encode, fun s => ?_, fun s => ?_⟩
  · have hwrites := (Writes.pull (s.address .imp)).trans (.setReg_nz .a s.pulled _)
    obtain ⟨hseq, hframe⟩ := hwrites.keeps_without_fetch false
    refine ⟨_, rfl, rfl, .of_eq ?_ ?_, BitVec.toNat_add s.sp 1, rfl, hseq, sameMemory_of_pull rfl, hframe⟩
    · simp [State.runOperation_eq]
    · simp [State.runOperation_eq]
  · have hwrites := (Writes.pull (s.address .imp)).trans (.setP (plpStatus s.pulled) _)
    obtain ⟨hseq, hframe⟩ := hwrites.keeps_without_fetch false
    have hflag (f : Flag) : (((s.address .imp).pull.setP (plpStatus s.pulled)).finish false).flag f =
        if f = .u then true else getFlag f s.pulled := by
      simp [getFlag_plpStatus]
    have hloaded (f : Flag) (hu : f ≠ .u) := (hflag f).trans (if_neg hu)
    have hb := (congrArg Bool.toNat (hloaded .b nofun)).trans (getFlag_toNat .b _)
    exact ⟨_, rfl, ⟨.of_getFlag fun f _ hu => hloaded f hu, hb, hflag .u, hflag⟩, BitVec.toNat_add s.sp 1, rfl, hseq,
      sameMemory_of_pull rfl, hframe.of_cons_u⟩

end Sys2Proof.Machine
end

section
/-! Operations that also write PC (45_control_transfer.md): a frame says nothing of PC and the countdown, so that theirs is the
frame of what they do otherwise. -/

namespace Sys2Proof.Machine

theorem Writes.refl (u : State) : Writes [] [] [] u u where
  regs _ _ := rfl
  flags _ _ := rfl
  latches _ _ := rfl
  pc := rfl
  countdown := rfl
  opcode := rfl
  clockCount := rfl
  boot := rfl

theorem Writes.setAddrAbs (v : Addr) (u : State) : Writes [] [] [.addrAbs] u (u.setAddrAbs v) where
  regs r _ := by cases r <;> rfl
  flags _ _ := rfl
  latches l hl := by cases l <;> simp_all [State.latch]
  pc := rfl
  countdown := rfl
  opcode := rfl
  clockCount := rfl
  boot := rfl

section
variable {regs : List Reg} {flags : List Flag} {latches : List Latch} {s t : State}

theorem Frame.setPcCountdown (h : Frame regs flags latches s t) (pc : Addr) (n : Nat) :
    Frame regs flags latches s { t with pc := pc, countdown := n } where
  regs r hr := (by cases r <;> rfl : State.reg _ r = t.reg r).trans (h.regs r hr)
  flags := h.flags
  unusedFlag := h.unusedFlag
  latches l hl := (by cases l <;> rfl : State.latch _ l = t.latch l).trans (h.latches l hl)
  opcode := h.opcode
  clockCount := h.clockCount
  boot := h.boot

/-- A frame holds with more listed. -/
theorem Frame.mono {regs' : List Reg} {flags' : List Flag} {latches' : List Latch} (h : Frame regs flags latches s t)
    (hregs : regs ⊆ regs') (hflags : flags ⊆ flags') (hlatches : latches ⊆ latches') : Frame regs' flags' latches' s t :=
  { h with
    regs := fun r hr => h.regs r (hr ∘ @hregs r)
    flags := fun f hf => h.flags f (hf ∘ @hflags f)
    latches := fun l hl => h.latches l (hl ∘ @hlatches l) }

end

/-- The frame of an instruction whose operation makes no `fetch()` and goes to an address at its end. -/
theorem Writes.frame_setPc {regs : List Reg} {flags : List Flag} {latches : List Latch} {o : Operand} {s w : State}
    (h : Writes regs flags latches (s.address o) w) (v : Addr) :
    Frame regs flags (latches ++ [modeLatch o]) s ((w.setPc v).finish (s.crosses o && false)) := by
  obtain ⟨-, hframe⟩ := h.keeps_without_fetch false
  exact hframe.setPcCountdown v _

end Sys2Proof.Machine
end

section
/-! Branches and jumps (45_control_transfer.md sections 1 and 2). -/

namespace Sys2Proof.Machine

open Sys2Proof.Shapes

/-! ### The conditional branches -/

/-- A well-formed instruction of an opcode and a displacement: these two bytes decode to it. -/
theorem branchOpcode_of_encode {b : Byte} {i : Byte → Instr} (hwf : ∀ d, (i d).wf defaultParams = true := by intro; rfl)
    (henc : ∀ d, encode (i d) = [b, d] := by intro; rfl) (hcycles : (tableRow b).baseCycles = 2 := by rfl) :
    BranchOpcode b i := by
  refine ⟨fun d rest => ?_, hcycles⟩
  have hdec := decodeEncodeRoundTrip defaultParams (i d) rest (hwf d)
  rwa [henc] at hdec

/-- The target of a branch, in the arithmetic of addresses: the displacement is sign-extended (R135, R320). -/
theorem branchTarget_eq (d : Byte) (s : State) : branchTarget d s = s.pc + 1 + sext16 d := by
  rw [branchTarget, BitVec.ofInt_add, BitVec.ofInt_add, BitVec.ofInt_natCast, BitVec.ofNat_toNat, BitVec.setWidth_eq]
  rfl

/-- The cycles of a taken branch: one, and one more for a target on another page (R320). -/
theorem takenCycles_eq (target next : Addr) :
    (if hi target != hi next then 2 else 1) = 1 + (if target.toNat / 256 = next.toNat / 256 then 0 else 1) := by
  have hpage := hi_bne_iff target next
  by_cases h : target.toNat / 256 = next.toNat / 256
  · rw [if_pos h, if_neg fun hcross => hpage.mp hcross h]
  · rw [if_neg h, if_pos (hpage.mpr h)]

/-- Taken or not, a branch writes its two latches, PC and the countdown alone (R320). -/
theorem frame_branch (taken : Bool) (d : Byte) (s : State) : Frame [] [] [.addrRel, .addrAbs] s
    (((s.address (.rel d)).branch taken).finish (s.crosses (.rel d) && false)) := by
  cases taken with
  | false =>
    obtain ⟨-, hframe⟩ := (Writes.refl (s.address (.rel d))).keeps_without_fetch false
    exact hframe.mono (by simp) (by simp) (by simp [modeLatch])
  | true =>
    obtain ⟨-, hframe⟩ := (Writes.setAddrAbs ((s.address (.rel d)).pc + (s.address (.rel d)).addrRel)
      (s.address (.rel d))).keeps_without_fetch false
    exact (hframe.setPcCountdown _ _).mono (by simp) (by simp) (by simp [modeLatch])

/-- A branch on the value of one flag (R320). -/
theorem branch_of_flag {i : Byte → Instr} {cond : State → Bool} {f : Flag} {v : Bool}
    (hcond : ∀ s, cond s = (s.flag f == v))
    (he : ∀ d s, exec (i d) s = .next (s.runOperation (.rel d) false fun u => u.branch (u.flag f == v))) : Branch i cond := by
  intro d s
  have ht := he d s
  rw [State.runOperation_eq, State.address_flag, ← hcond] at ht
  have hpc : (s.address (.rel d)).pc = s.pc + 1 := State.address_pc (.rel d) s
  have htarget : (s.address (.rel d)).pc + (s.address (.rel d)).addrRel = branchTarget d s := by
    rw [hpc, branchTarget_eq, State.address_addrRel]
  refine ⟨_, ht, fun htaken => ?_, fun hnot => ?_, ?_, ?_, ?_⟩
  · rw [htaken, State.branch_true, htarget, hpc]
    refine ⟨rfl, rfl, ?_⟩
    simp only [State.finish_countdown, State.address_countdown, takenCycles_eq, Bool.and_false, Nat.add_assoc]
    rfl
  · rw [hnot, State.branch_false]
    exact ⟨hpc, State.address_addrAbs (.rel d) s, by simp⟩
  · rw [State.finish_addrRel, State.branch_addrRel, State.address_addrRel]
    exact BitVec.toInt_signExtend_of_le (by decide)
  · exact (memoryBut_address [] (.rel d) s).congr_bus (State.branch_bus _ _)
  · exact frame_branch _ d s

/-- Settles O45: each of the eight tests its flag by name. -/
theorem branchInstructions : Obligations.BranchInstructions := by
  have hclear (f : Flag) (s : State) : (!s.flag f) = (s.flag f == false) := (beq_false _).symm
  have hset (f : Flag) (s : State) : s.flag f = (s.flag f == true) := (beq_true _).symm
  exact ⟨branchOpcode_of_encode, branchOpcode_of_encode, branchOpcode_of_encode, branchOpcode_of_encode,
    branchOpcode_of_encode, branchOpcode_of_encode, branchOpcode_of_encode, branchOpcode_of_encode,
    branch_of_flag (hclear .n) fun _ _ => rfl, branch_of_flag (hset .n) fun _ _ => rfl,
    branch_of_flag (hclear .v) fun _ _ => rfl, branch_of_flag (hset .v) fun _ _ => rfl,
    branch_of_flag (hclear .c) fun _ _ => rfl, branch_of_flag (hset .c) fun _ _ => rfl,
    branch_of_flag (hclear .z) fun _ _ => rfl, branch_of_flag (hset .z) fun _ _ => rfl⟩

/-! ### JMP -/

/-- Settles O46: the operation writes PC alone, from the latch of its mode. -/
theorem jumpGoesToItsTarget : Obligations.JumpGoesToItsTarget := by
  refine ⟨.of_opcode, rfl, rfl, fun o s => ⟨_, rfl, ?_, ?_, ?_, (Writes.refl _).frame_setPc _⟩⟩
  · simp [State.runOperation_eq]
  · simp [State.runOperation_eq]
  · exact (memoryBut_address [] o s).congr_bus rfl

end Sys2Proof.Machine
end

section
/-! Words on the stack (20_memory.md R66 to R68): what a push of two bytes stores, and what two pulls read. -/

namespace Sys2Proof.Machine

theorem stackAddr_injective : Function.Injective stackAddr := by
  intro v w h
  rw [← BitVec.toNat_inj, stackAddr_toNat, stackAddr_toNat] at h
  exact BitVec.eq_of_toNat_eq (Nat.add_left_cancel h)

theorem hi_eq_ofNat (a : Addr) : hi a = BitVec.ofNat 8 (a.toNat / 256) := by
  rw [← hi_toNat, BitVec.ofNat_toNat, BitVec.setWidth_eq]

theorem lo_eq_ofNat_mod (a : Addr) : lo a = BitVec.ofNat 8 (a.toNat % 256) := by
  rw [← lo_toNat, BitVec.ofNat_toNat, BitVec.setWidth_eq]

section
variable {addrs : List Addr} {s t : State}

/-- Only the bus counts. -/
theorem Stored.congr_bus {u : State} {a : Addr} {v : Byte} (h : Stored a v s t) (hu : u.bus = t.bus) : Stored a v s u := by
  refine ⟨fun hr => ?_, fun pair calls hs => ?_⟩
  · rw [State.read_eq, hu]
    exact h.1 hr
  · rw [hu]
    exact h.2 pair calls hs

theorem Stored.push (h : MemoryBut addrs s t) (v : Byte) : Stored (stackAddr t.sp) v s (t.push v) := .write h rfl

/-- A push leaves what is stored at other stack addresses. -/
theorem Stored.keep_push {sp v : Byte} (h : Stored (stackAddr sp) v s t) (hmem : MemoryBut addrs s t) (w : Byte)
    (hne : sp ≠ t.sp) : Stored (stackAddr sp) v s (t.push w) :=
  h.keep (fun hr => (hmem.1 hr).1) ((MemoryBut.of_bus rfl : MemoryBut [stackAddr t.sp] t t).push w (List.mem_singleton_self _))
    (List.mem_singleton.not.mpr (stackAddr_injective.ne hne))

/-- The two bytes of a pushed word, the high one above the low one (R66). -/
theorem Stored.pushWord (h : MemoryBut addrs s t) (v : Addr) :
    Stored (stackAddr t.sp) (hi v) s (t.pushWord v) ∧ Stored (stackAddr (t.sp - 1)) (lo v) s (t.pushWord v) := by
  have hhi : MemoryBut (stackAddr t.sp :: addrs) s (t.push (hi v)) :=
    (h.mono fun _ ha => List.mem_cons_of_mem _ ha).push _ List.mem_cons_self
  exact ⟨(Stored.push h (hi v)).keep_push hhi (lo v) (by rw [State.push_sp]; bv_omega), .push hhi (lo v)⟩

end

/-- On the RAM two pulls read what a push of a word stacked, in any state that keeps S and the two bytes (R66, R67). -/
theorem State.pulledWord_of_pushWord {s t u : State} {v : Addr} (hr : OnRam s) (hbus : t.bus = (s.pushWord v).bus)
    (hsp : u.sp + 1 + 1 = s.sp) (hu : OnRam u) (hhi : u.read (stackAddr s.sp) = t.read (stackAddr s.sp))
    (hlo : u.read (stackAddr (s.sp - 1)) = t.read (stackAddr (s.sp - 1))) : u.pulledWord = v := by
  obtain ⟨hhigh, hlow⟩ := Stored.pushWord (.of_bus rfl : MemoryBut [] s s) v
  obtain ⟨m, hm⟩ := hu
  have hpull : u.pull.pulled = u.read (stackAddr s.sp) := by
    rw [State.pulled_eq, State.pull_bus, hm, State.pull_sp, hsp, State.read_eq, hm]
    rfl
  have hlow' : u.pulled = u.read (stackAddr (s.sp - 1)) := by rw [← hsp, BitVec.add_sub_cancel]; rfl
  rw [State.pulledWord, hpull, hlow', hhi, hlo, State.read_eq, State.read_eq, hbus, ← State.read_eq, ← State.read_eq,
    hhigh.1 hr, hlow.1 hr, joinBytes_hi_lo]

/-- Two pulls as numbers: the low byte first, the high byte one address higher (R67). -/
theorem State.pulledWord_toNat (s : State) : s.pulledWord.toNat =
    ((s.afterRead (stackAddr (s.sp + 1))).read (stackAddr (s.sp + 2))).toNat * 256 + (s.read (stackAddr (s.sp + 1))).toNat := by
  have hsecond : s.sp + 2 = s.sp + 1 + 1 := (BitVec.add_assoc s.sp 1 1).symm
  rw [hsecond]
  exact joinBytes_toNat _ _

end Sys2Proof.Machine
end

section
/-! Subroutines (45_control_transfer.md section 2). -/

namespace Sys2Proof.Machine

/-- The word JSR pushes is the address of its last byte, one after the operand's first (R330). -/
theorem jsr_return_address (addr : Addr) (s : State) : (s.address (.abs addr)).pc - 1 = s.pc + 1 := by
  have hpc : (s.address (.abs addr)).pc = s.pc + 1 + 1 := (State.address_pc _ s).trans (BitVec.add_assoc s.pc 1 1).symm
  rw [hpc, BitVec.add_sub_cancel]

theorem exec_jsr (addr : Addr) (s : State) : exec (.jsr addr) s =
    .next ((((s.address (.abs addr)).pushWord (s.pc + 1)).setPc addr).finish (s.crosses (.abs addr) && false)) := by
  have hrun : exec (.jsr addr) s =
      .next (s.runOperation (.abs addr) false fun u => (u.pushWord (u.pc - 1)).setPc u.addrAbs) := rfl
  rw [hrun, State.runOperation_eq, jsr_return_address, State.address_addrAbs, State.target]

/-- Settles O47: the bytes JSR pushes are those of the word in `exec_jsr`. -/
theorem jsrPushesItsReturnAddress : Obligations.JsrPushesItsReturnAddress := by
  refine ⟨fun addr rest => decodeEncodeRoundTrip defaultParams (.jsr addr) rest rfl, rfl, fun addr s => ?_⟩
  have hmode := memoryBut_address [stackAddr s.sp, stackAddr (s.sp - 1)] (.abs addr) s
  have hpush := hmode.pushWord (s.pc + 1) (by simp) (by simp)
  obtain ⟨hhi, hlo⟩ := Stored.pushWord hmode (s.pc + 1)
  rw [State.address_sp, hi_eq_ofNat] at hhi
  rw [State.address_sp, lo_eq_ofNat_mod] at hlo
  have hpushes := (Writes.push (hi (s.pc + 1)) (s.address (.abs addr))).trans (.push (lo (s.pc + 1)) _)
  refine ⟨_, exec_jsr addr s, rfl, rfl, by simp, ?_, hhi.congr_bus rfl, hlo.congr_bus rfl, hpush.congr_bus rfl,
    (hpushes.frame_setPc addr).mono (by simp) (by simp) (by simp [modeLatch])⟩
  rw [State.finish_sp, State.setPc_sp, State.pushWord_sp, State.address_sp]
  bv_omega

theorem exec_rts (s : State) : exec .rts s =
    .next (((s.address .imp).pull.pull.setPc (s.pulledWord + 1)).finish (s.crosses .imp && false)) := rfl

/-- Settles O48: the two pulls write S alone, and PC is the word they read plus one. -/
theorem rtsPopsAndAddsOne : Obligations.RtsPopsAndAddsOne := by
  refine ⟨.of_encode, fun s => ⟨_, exec_rts s, ?_, ?_, by simp, rfl, (sameMemory_of_pull rfl).afterRead rfl, ?_⟩⟩
  · simp only [← State.pulledWord_toNat]
    exact BitVec.toNat_add s.pulledWord 1
  · rw [State.finish_sp, State.setPc_sp, State.pull_sp, State.pull_sp, State.address_sp]
    bv_omega
  · have hpulls := (Writes.pull (s.address .imp)).trans (.pull _)
    exact (hpulls.frame_setPc _).mono (by simp) (by simp) (by simp [modeLatch])

/-- Settles O49: the word RTS reads is the one JSR pushed, the address before the next instruction. -/
theorem rtsReturnsAfterJsr : Obligations.RtsReturnsAfterJsr := by
  intro addr s t u hr ht hu husp hhi hlo
  obtain rfl := Host.Outcome.next.inj ((exec_jsr addr s).symm.trans ht)
  obtain ⟨hmode, -⟩ := (memoryBut_address [] (.abs addr) s).1 hr
  rw [State.finish_sp, State.setPc_sp, State.pushWord_sp, State.address_sp] at husp
  have hsp : u.sp + 1 + 1 = s.sp := by rw [husp, BitVec.sub_add_cancel, BitVec.sub_add_cancel]
  have hword : u.pulledWord = s.pc + 1 :=
    State.pulledWord_of_pushWord hmode rfl (by rw [State.address_sp, hsp]) hu (by rwa [State.address_sp])
      (by rwa [State.address_sp])
  refine ⟨_, exec_rts u, ?_, by simpa using hsp⟩
  rw [State.finish_pc, State.setPc_pc, hword]
  exact BitVec.add_assoc s.pc 1 1

end Sys2Proof.Machine
end

section
/-! RTI (45_control_transfer.md section 2; 60_exceptions.md R378). -/

namespace Sys2Proof.Machine

/-- RTI pops P, without B and U, and then the word that PC takes (R332). -/
theorem exec_rti (s : State) : exec .rti s =
    .next ((((s.address .imp).pull.setP (rtiStatus s.pulled)).pull.pull.setPc s.pull.pulledWord).finish
      (s.crosses .imp && false)) := rfl

/-- Settles O50: P is the byte of the first pull, B and U cleared and U then set again; PC is the word of the other two. -/
theorem rtiRestoresStatusAndPc : Obligations.RtiRestoresStatusAndPc := by
  refine ⟨.of_encode, fun s => ?_⟩
  have hflag (f : Flag) : ((((s.address .imp).pull.setP (rtiStatus s.pulled)).pull.pull.setPc s.pull.pulledWord).finish
      (s.crosses .imp && false)).flag f = if f = .b then false else if f = .u then true else getFlag f s.pulled := by
    rw [State.finish_flag, State.setPc_flag, State.pull_flag, State.pull_flag, State.setP_flag, getFlag_rtiStatus]
    cases f <;> rfl
  have hsecond : s.sp + 1 + 1 = s.sp + 2 := BitVec.add_assoc s.sp 1 1
  have hthird : s.sp + 1 + 2 = s.sp + 3 := BitVec.add_assoc s.sp 1 2
  refine ⟨_, exec_rti s, ⟨.of_getFlag fun f hb hu => ?_, hflag, ?_⟩, ?_, by simp, rfl,
    ((sameMemory_of_pull rfl).afterRead rfl).afterRead rfl, ?_⟩
  · rw [hflag, if_neg hb, if_neg hu]
    rfl
  · have hword := s.pull.pulledWord_toNat
    rw [State.pull_sp, hthird, hsecond] at hword
    exact hword
  · rw [State.finish_sp, State.setPc_sp, State.pull_sp, State.pull_sp, State.setP_sp, State.pull_sp, State.address_sp]
    bv_omega
  · have hpulls := (((Writes.pull (s.address .imp)).trans (.setP (rtiStatus s.pulled) _)).trans (.pull _)).trans (.pull _)
    exact (hpulls.frame_setPc _).of_cons_u.mono (by simp) (by simp) (by simp [modeLatch])

end Sys2Proof.Machine
end

section
/-! Taking an interrupt (60_exceptions.md R374; 45_control_transfer.md R333): what is stacked, where PC comes from, and the
accesses. In the lemmas `s` is the state that a statement starts from and `u` the one that takes the interrupt. -/

namespace Sys2Proof.Machine

open Sys2Proof.Shapes

/-- The three pushes of an interrupt: PC high and low, then a status byte. -/
def State.pushFrame (status : Byte) (u : State) : State := (u.pushWord u.pc).push status

/-- The status byte that an interrupt stacks: P with I set and B as given. -/
def stackedStatus (b : Bool) (p : Byte) : Byte := putFlag .b b (putFlag .i true p)

theorem getFlag_stackedStatus (f : Flag) (b : Bool) (p : Byte) :
    getFlag f (stackedStatus b p) = if f = .b then b else if f = .i then true else getFlag f p := by
  rw [stackedStatus, getFlag_putFlag, getFlag_putFlag]

/-- After the pushes an interrupt makes the two reads of its vector. -/
theorem State.takeInterrupt_bus (v : Addr) (b : Bool) (u : State) :
    (u.takeInterrupt v b).bus = ((u.pushFrame (stackedStatus b u.p)).afterReads [v, v + 1]).bus := rfl

theorem State.takeInterrupt_pc (v : Addr) (b : Bool) (u : State) :
    (u.takeInterrupt v b).pc = (u.pushFrame (stackedStatus b u.p)).readWord v := rfl

theorem State.pushWord_sp_eq (v : Addr) (u : State) : (u.pushWord v).sp = u.sp - 2 := by
  rw [State.pushWord_sp]
  bv_omega

theorem State.takeInterrupt_sp (v : Addr) (b : Bool) (u : State) : (u.takeInterrupt v b).sp = u.sp - 3 := by
  rw [State.takeInterrupt_eq]
  simp only
  bv_omega

theorem State.interruptAccesses_eq (v : Addr) (b : Bool) (u : State) : u.interruptAccesses v b =
    pushAccesses u.sp [hi u.pc, lo u.pc, stackedStatus b u.p] ++ (u.pushFrame (stackedStatus b u.p)).pairAccesses v (v + 1) := rfl

theorem Stored.afterReads {s t u : State} {a : Addr} {v : Byte} (h : Stored a v s t) (ht : OnRam s → OnRam t) {l : List Addr}
    (hu : u.bus = (t.afterReads l).bus) : Stored a v s u :=
  h.keep ht ((MemoryBut.of_bus rfl : MemoryBut [] t t).afterReads hu) List.not_mem_nil

section
variable {s u t : State} (hmem : SameMemory s u) (hsp : u.sp = s.sp)
include hmem hsp

/-- The pushes write at S, S - 1 and S - 2 alone. -/
theorem memoryBut_pushFrame (status : Byte) :
    MemoryBut [stackAddr s.sp, stackAddr (s.sp - 1), stackAddr (s.sp - 2)] s (u.pushFrame status) := by
  have hlist := hmem.mono (addrs' := [stackAddr s.sp, stackAddr (s.sp - 1), stackAddr (s.sp - 2)]) nofun
  exact (hlist.pushWord u.pc (by simp [hsp]) (by simp [hsp])).push status (by rw [State.pushWord_sp_eq, hsp]; simp)

theorem stored_pushFrame (status : Byte) :
    Stored (stackAddr s.sp) (hi u.pc) s (u.pushFrame status) ∧
    Stored (stackAddr (s.sp - 1)) (lo u.pc) s (u.pushFrame status) ∧
    Stored (stackAddr (s.sp - 2)) status s (u.pushFrame status) := by
  have hthird : (u.pushWord u.pc).sp = s.sp - 2 := by rw [State.pushWord_sp_eq, hsp]
  have hword : MemoryBut [stackAddr s.sp, stackAddr (s.sp - 1)] s (u.pushWord u.pc) :=
    (hmem.mono nofun).pushWord u.pc (by simp [hsp]) (by simp [hsp])
  obtain ⟨hhi, hlo⟩ := Stored.pushWord hmem u.pc
  have hstatus := Stored.push hword status
  rw [hsp] at hhi hlo
  rw [hthird] at hstatus
  exact ⟨hhi.keep_push hword status (by rw [hthird]; bv_omega), hlo.keep_push hword status (by rw [hthird]; bv_omega),
    hstatus⟩

variable (v : Addr) (b : Bool)

/-- The stacked bytes in numbers, after the reads of the vector too. -/
theorem stackedFrame_takeInterrupt (ht : t.bus = (u.takeInterrupt v b).bus) :
    StackedFrame u.pc (fun f => if f = .b then b else if f = .i then true else u.flag f) s t := by
  have hram (hr : OnRam s) : OnRam (u.pushFrame (stackedStatus b u.p)) := ((memoryBut_pushFrame hmem hsp _).1 hr).1
  obtain ⟨hhi, hlo, hstatus⟩ := stored_pushFrame hmem hsp (stackedStatus b u.p)
  rw [hi_eq_ofNat] at hhi
  rw [lo_eq_ofNat_mod] at hlo
  have hflags := funext fun f => getFlag_stackedStatus f b u.p
  rw [State.takeInterrupt_bus] at ht
  exact ⟨hhi.afterReads hram ht, hlo.afterReads hram ht, _, hstatus.afterReads hram ht,
    (toNat_eq_packed _).trans (congrArg packed hflags), congrFun hflags⟩

theorem memoryBut_takeInterrupt (ht : t.bus = (u.takeInterrupt v b).bus) :
    MemoryBut [stackAddr s.sp, stackAddr (s.sp - 1), stackAddr (s.sp - 2)] s t := by
  rw [State.takeInterrupt_bus] at ht
  exact (memoryBut_pushFrame hmem hsp _).afterReads ht

/-- A vector outside page 1 reads as before the pushes. -/
theorem fromVector_takeInterrupt {v : Addr} (hv : 0x01FF < v.toNat) (hv' : 0x01FF < (v + 1).toNat)
    (ht : t.pc = (u.takeInterrupt v b).pc) : FromVector v s t := by
  intro hr
  obtain ⟨⟨m, hm⟩, hother⟩ := (memoryBut_pushFrame hmem hsp (stackedStatus b u.p)).1 hr
  have hkeep (a : Addr) (ha : 0x01FF < a.toNat) : (u.pushFrame (stackedStatus b u.p)).read a = s.read a := by
    have hpage (sp : Byte) : a ≠ stackAddr sp := by
      rintro rfl
      have := sp.isLt
      rw [stackAddr_toNat] at ha
      omega
    exact hother a (by simp [hpage])
  rw [ht, State.takeInterrupt_pc, State.readWord, State.readPair_toNat, State.afterRead_ram hm, hkeep _ hv, hkeep _ hv']

end

/-- The accesses are the three pushes and the two reads, which give PC. -/
theorem entryAccesses_takeInterrupt {u t : State} {sp : Byte} (hsp : u.sp = sp) (v : Addr) (b : Bool)
    (hbus : t.bus = (u.takeInterrupt v b).bus) (hpc : t.pc = (u.takeInterrupt v b).pc) :
    EntryAccesses v sp (u.interruptAccesses v b) u.bus t := by
  have hthird : sp - 2 = sp - 1 - 1 := by bv_omega
  refine ⟨(Accounts.takeInterrupt v b u).congr_bus hbus, hi u.pc, lo u.pc, stackedStatus b u.p,
    (u.pushFrame (stackedStatus b u.p)).read v, ((u.pushFrame (stackedStatus b u.p)).afterRead v).read (v + 1), ?_, ?_⟩
  · rw [hpc, State.takeInterrupt_pc, State.readWord, State.readPair_toNat]
  · rw [State.interruptAccesses_eq, hsp, hthird]
    rfl

/-- The frame of an instruction whose operation, PC aside, makes no `fetch()` and writes what is listed. -/
theorem Writes.frame_of_setPc {regs : List Reg} {flags : List Flag} {latches : List Latch} {o : Operand} {s w : State}
    {pc : Addr} (h : Writes regs flags latches (s.address o) (w.setPc pc)) :
    Frame regs flags (latches ++ [modeLatch o]) s (w.finish (s.crosses o && false)) := by
  obtain ⟨-, hframe⟩ := h.keeps_without_fetch false
  exact hframe.setPcCountdown w.pc _

/-- Apart from PC, taking an interrupt writes S, I and B; what PC was before does not matter to the rest. -/
theorem Writes.takeInterrupt (v : Addr) (b : Bool) (pc : Addr) (u : State) :
    Writes [.sp] [.i, .b] [] u (((u.setPc pc).takeInterrupt v b).setPc u.pc) where
  regs r hr := by cases r <;> simp_all [State.reg]
  flags f hf := by simp_all [State.takeInterrupt_flag]
  latches l _ := by cases l <;> simp [State.latch]
  pc := State.setPc_pc _ _
  countdown := by simp
  opcode := by simp
  clockCount := by simp
  boot := by simp

end Sys2Proof.Machine
end

section
/-! BRK (45_control_transfer.md section 3). -/

namespace Sys2Proof.Machine

open Sys2Proof.Shapes

/-- The row of BRK in the mode of the parameter (R333). -/
theorem brk_wf {p : Params} {o : Operand} (h : o.mode = brkRowMode p) : (Instr.brk o).wf p = true := by
  have hmode : (Instr.brk o).modeOk = true := by
    rw [Instr.modeOk, List.contains_iff_mem]
    show o.mode ∈ Op.brk.modes
    rw [h, brkRowMode]
    cases p.brkMode <;> decide
  rw [Instr.wf, hmode, Instr.rowOk, h]
  simp

theorem exec_brk (o : Operand) (s : State) : exec (.brk o) s =
    .next ((((s.address o).setPc (s.nextPc o + 1)).takeInterrupt irqVector true).finish (s.crosses o && false)) := by
  rw [← State.address_pc]
  rfl

/-- Settles O51: the operation takes an interrupt from the state that its mode leaves, PC one further. -/
theorem brkTakesTheInterrupt : Obligations.BrkTakesTheInterrupt := by
  refine ⟨rfl, fun p rest hp => decodeEncodeRoundTrip p (.brk .imp) rest (brk_wf (by rw [brkRowMode, hp]; rfl)),
    fun p v rest hp => decodeEncodeRoundTrip p (.brk (.imm v)) rest (brk_wf (by rw [brkRowMode, hp]; rfl)), fun o s => ?_⟩
  have hsp : ((s.address o).setPc (s.nextPc o + 1)).sp = s.sp := State.address_sp o s
  have hmem : SameMemory s ((s.address o).setPc (s.nextPc o + 1)) := (memoryBut_address [] o s).congr_bus rfl
  refine ⟨_, exec_brk o s, ?_, fun f => ?_, fromVector_takeInterrupt hmem hsp true (by decide) (by decide) rfl,
    ⟨_, rfl, ?_⟩, ?_, by simp, memoryBut_takeInterrupt hmem hsp irqVector true rfl,
    (Writes.takeInterrupt irqVector true (s.nextPc o + 1) (s.address o)).frame_of_setPc⟩
  · have hstatus : (fun f => if f = .b then true else if f = .i then true else
        ((s.address o).setPc (s.nextPc o + 1)).flag f) = fun f => if f = .b ∨ f = .i then true else s.flag f := by
      funext f
      rw [State.setPc_flag, State.address_flag]
      cases f <;> rfl
    rw [← hstatus]
    exact stackedFrame_takeInterrupt hmem hsp irqVector true rfl
  · rw [State.finish_flag, State.takeInterrupt_flag, State.setPc_flag, State.address_flag]
    cases f <;> rfl
  · have hcongr : s.operationAccesses (.brk o) = ((s.address o).setPc (s.nextPc o + 1)).interruptAccesses irqVector true :=
      State.interruptAccesses_congr (by simp) (by simp) (by simp) (by simp) _ _
    rw [hcongr]
    exact entryAccesses_takeInterrupt hsp irqVector true rfl rfl
  · rw [State.finish_sp, State.takeInterrupt_sp, hsp]

end Sys2Proof.Machine
end

section
/-! NOP and the unused rows (45_control_transfer.md section 4; 30_encoding.md R97, R98). -/

namespace Sys2Proof.Machine

/-! ### The rows -/

/-- The rows of R97 have their modes under the default parameters, and their base cycles. -/
theorem unofficialNops_rows : ∀ e ∈ unofficialNops, e.2 ∈ Op.nop.modes ∧ nopRowMode defaultParams e.1 = some e.2 ∧
    (tableRow e.1).baseCycles = if e.1 = 0x9C then 5 else baseCyclesOf .nop e.2 := by decide

/-- A NOP has the one row of its opcode. -/
theorem opcodes_nop {b : Byte} {m : Mode} (hm : m ∈ Op.nop.modes) (hrow : nopRowMode defaultParams b = some m) :
    Opcodes [(m, b)] (.nop b) := by
  have hlookup (o : Operand) : [(m, b)].lookup o.mode = if o.mode = m then some b else none := by
    rw [List.lookup_cons]
    split <;> simp_all
  refine .of_opcode (fun o c h => ?_) fun o => ?_
  · rw [hlookup] at h
    split at h
    · exact h
    · cases h
  · have hmode : (Instr.nop b o).mode = o.mode := rfl
    have hop : (Instr.nop b o).op = .nop := rfl
    rw [hlookup, Instr.wf, Instr.modeOk, Instr.rowOk, hrow, hmode, hop]
    by_cases h : o.mode = m
    · simp [h, hm]
    · simp [h, Ne.symm h]

/-- The rows of the list are `???` rows of the table, with their base cycles (R95). -/
theorem unusedBaseCycles_rows : ∀ e ∈ unusedBaseCycles, ∀ b ∈ e.2,
    (tableRow b).op = .unused ∧ (tableRow b).baseCycles = e.1 := by
  decide +kernel

/-- An unused row exists where the policy runs it (R98). -/
theorem unused_wf {p : Params} {b : Byte} (hp : p.illegal = .nop) (hb : b ∈ unusedRows) : (Instr.unused b).wf p = true := by
  have hmode : (Instr.unused b).modeOk = true := rfl
  rw [Instr.wf, hmode, Instr.rowOk, List.contains_iff_mem.mpr hb, hp]
  rfl

/-! ### What they do -/

/-- The rows that pay for a page crossing (R146). -/
theorem nopHint_eq_decide (b : Byte) : nopHint b = decide (b ∈ [0x1C, 0x3C, 0x5C, 0x7C, 0xDC, 0xFC]) := by
  rw [nopHint, List.contains_eq_mem]

theorem exec_unused (b : Byte) (s : State) :
    exec (.unused b) s = .next ((s.address .imp).finish (s.crosses .imp && false)) := rfl

/-- Settles O52: the rows are those of the table (R95); neither operation does anything, so that an instruction leaves what its
mode leaves. -/
theorem nopAndUnusedRows : Obligations.NopAndUnusedRows := by
  refine ⟨.of_encode, fun e he => ?_, fun e he b hb => ?_, by decide +kernel, fun b o s => ?_, fun b s => ?_⟩
  · obtain ⟨hm, hrow, hcycles⟩ := unofficialNops_rows e he
    exact ⟨opcodes_nop hm hrow, hcycles⟩
  · obtain ⟨hrow, hcycles⟩ := unusedBaseCycles_rows e he b hb
    rw [tableRow_op_eq_unused_iff] at hrow
    exact ⟨hrow, .of_encode (unused_wf rfl hrow) rfl hcycles⟩
  · obtain ⟨hseq, hframe⟩ := (Writes.refl (s.address o)).keeps_without_fetch (nopHint b)
    rw [← nopHint_eq_decide]
    exact ⟨_, rfl, hseq, (memoryBut_address [] o s).congr_bus rfl, List.append_nil _, hframe⟩
  · exact ⟨_, rfl, rfl, (Writes.refl (s.address .imp)).keeps_imp rfl false⟩

/-! ### The clock at an unused row -/

theorem State.bytesFrom_length (n : Nat) (a : Addr) (s : State) : (s.bytesFrom n a).length = n := by
  induction n generalizing a s with
  | zero => rfl
  | succ n ih => exact congrArg Nat.succ (ih _ _)

/-- The clock at bytes that do not decode. -/
theorem clockWith_refused {p : Params} {s : State} {e : DecodeError} (hb : s.boot = .live) (hc : s.countdown = 0)
    (hd : decode p (s.instructionBytes p) = .error e) : clockWith p s = .refused (refusalOf e) := by
  simp [clockWith, hb, hc, startInstruction, hd]

/-- The bytes of an unused row are its opcode alone, which decodes to the row where the policy runs it (R98). -/
theorem decode_instructionBytes_unused {p : Params} {s : State} (hp : p.illegal = .nop) (hb : s.read s.pc ∈ unusedRows) :
    decode p (s.instructionBytes p) = .ok (.unused (s.read s.pc), []) := by
  have hmode : rowMode p (s.read s.pc) = .imp := (rowMode_plain p (unusedRows_agree _ hb)).2
  rw [State.instructionBytes_eq_cons, hmode]
  exact decodeEncodeRoundTrip p (.unused (s.read s.pc)) [] (unused_wf hp hb)

theorem State.beginInstruction_flag (s : State) (f : Flag) :
    s.beginInstruction.flag f = if f = .u then true else s.flag f := by
  rw [State.flag_eq, State.beginInstruction_p, getFlag_putFlag, State.flag_eq]

/-- Settles O9: the policy decides in the decoder, and what decodes runs. -/
theorem unusedRowsFollowThePolicy : Obligations.UnusedRowsFollowThePolicy := by
  intro p s hboot hcount
  refine ⟨fun hp hb => ?_, fun h => ?_, fun hp hb => ?_⟩
  · have hop := (tableRow_op_eq_unused_iff _).mpr hb
    refine clockWith_refused (e := .illegalOpcode (s.read s.pc)) hboot hcount ?_
    rw [State.instructionBytes_eq_cons, decode_refused _ hop hp]
  · have hruns : ¬((tableRow (s.read s.pc)).op = .unused ∧ p.illegal = .refuse) := by
      rintro ⟨hop, hrefuse⟩
      obtain hnop | hb := h
      · simp [hnop] at hrefuse
      · exact hb ((tableRow_op_eq_unused_iff _).mp hop)
    obtain ⟨i, rest, hdec⟩ := decode_of_length hruns (State.bytesFrom_length _ (s.pc + 1) (s.afterRead s.pc)).ge
    rw [← State.instructionBytes_eq_cons] at hdec
    obtain ⟨u, hu⟩ := exec_next i s.beginInstruction
    exact ⟨_, clockWith_start hboot hcount hdec hu⟩
  · refine ⟨_, clockWith_start hboot hcount (decode_instructionBytes_unused hp hb) (exec_unused _ _), rfl, rfl, ?_,
      (MemoryBut.of_bus rfl : SameMemory s s).afterRead rfl, fun r => ?_, fun f => ?_⟩
    · obtain ⟨hbase, -⟩ := baseCycles_bounds (s.read s.pc)
      simp
      omega
    · cases r <;> rfl
    · rw [State.tick_flag, State.finish_flag, State.address_flag, State.beginInstruction_flag]
      cases f <;> rfl

end Sys2Proof.Machine
end

section
/-! A core that has been reset answers every clock and every host call (60_exceptions.md R370, R375, R377). -/

namespace Sys2Proof.Machine

/-! ### The clock -/

/-- Every instruction runs an operation that counts no tick (R36). -/
theorem exec_operation_clockCount (i : Instr) (s : State) :
    ∃ (hint : Bool) (f : State → State), exec i s = .next (s.runOperation i.operand hint f) ∧
      ∀ u, (f u).clockCount = u.clockCount := by
  cases i
  all_goals
    refine ⟨_, _, rfl, fun u => ?_⟩
    simp

theorem exec_clockCount {i : Instr} {s t : State} (h : exec i s = .next t) : t.clockCount = s.clockCount := by
  obtain ⟨hint, f, hf, hcount⟩ := exec_operation_clockCount i s
  obtain rfl : s.runOperation i.operand hint f = t := by simpa [hf] using h
  rw [State.runOperation_eq, State.finish_clockCount, hcount, State.address_clockCount]

/-- A live core's clock answers: an idle tick always does, and under the default policy so does every row (R99). -/
theorem step_next {s : State} (hlive : s.boot = .live) : ∃ t, step s = .next t := by
  by_cases hcount : s.countdown = 0
  · obtain ⟨-, hruns, -⟩ := unusedRowsFollowThePolicy defaultParams s hlive hcount
    exact hruns (.inl rfl)
  · exact ⟨s.tick, clockWith_idle hlive hcount⟩

/-- Settles O8: neither an idle tick nor an instruction changes the boot stage or counts a tick, but for the tick itself. -/
theorem liveCoreNeverStops : Obligations.LiveCoreNeverStops := by
  intro s hlive
  obtain ⟨t, ht⟩ := step_next hlive
  refine ⟨t, ht, ?_⟩
  obtain ⟨-, ⟨-, rfl⟩ | ⟨-, i, rest, u, hd, hu, rfl⟩⟩ := clockWith_cases ht
  · exact ⟨hlive, rfl⟩
  · obtain ⟨-, -, hboot, -⟩ := start_tick_facts hd hu
    refine ⟨hboot.trans hlive, ?_⟩
    rw [State.tick_clockCount, exec_clockCount hu, State.beginInstruction_clockCount]

/-! ### The other calls -/

theorem call_irq {s : State} (hlive : s.boot = .live) : call .irq s = .next s.irq := by
  simp [call, callWith, callIrq, hlive]

theorem call_nmi {s : State} (hlive : s.boot = .live) : call .nmi s = .next s.nmi := by
  simp [call, callWith, callNmi, hlive]

/-- The invariant asks of the bus its canonical form alone. -/
theorem State.Inv.setBus {s : State} (h : s.Inv) {b : Bus} (hb : b.wf = true) : State.Inv { s with bus := b } :=
  ⟨hb, h.unusedFlag, h.countdown, h.live⟩

theorem State.Inv.entry {s : State} (h : s.Inv) (v : Addr) {n : Nat} (hn : n ≤ 8) : (s.entry v n).Inv :=
  ⟨State.wf_takeInterrupt (s := s.setFlag .u true) v false h.memory, State.entry_unusedFlag v n s, hn,
    (State.entry_boot v n s).trans h.live⟩

theorem State.Inv.irq {s : State} (h : s.Inv) : s.irq.Inv := by
  cases hi : s.flag .i with
  | true => rwa [State.irq_masked hi]
  | false =>
    rw [State.irq_taken hi]
    exact h.entry irqVector (by decide)

theorem State.Inv.resetSequence {s : State} (h : s.Inv) : s.resetSequence.Inv :=
  ⟨Bus.wf_afterRead _ (Bus.wf_afterRead _ h.memory), State.resetSequence_unusedFlag s, le_rfl, rfl⟩

/-- Every host call answers, and keeps the invariant. -/
theorem State.Inv.call {s : State} (h : s.Inv) {c : HostCall} (hc : c.ok = true) : ∃ t, call c s = .next t ∧ t.Inv := by
  have hbus : s.boot ≠ .noBus := by
    rw [h.live]
    nofun
  cases c with
  | clock =>
    obtain ⟨t, ht⟩ := step_next h.live
    exact ⟨t, ht, stepKeepsInvariant s t h ht⟩
  | reset => exact ⟨_, call_reset hbus, h.resetSequence⟩
  | irq => exact ⟨_, call_irq h.live, h.irq⟩
  | nmi => exact ⟨_, call_nmi h.live, h.entry nmiVector le_rfl⟩
  | connectBus b =>
    refine ⟨_, call_connectBus b s, ?_⟩
    rw [if_pos h.live, ← h.live]
    exact h.setBus hc
  | hostRead a => exact ⟨_, call_hostRead a hbus, h.setBus (Bus.wf_afterRead a h.memory)⟩
  | hostWrite a v => exact ⟨_, call_hostWrite a v hbus, h.setBus (Bus.wf_write a v h.memory)⟩

/-- Settles O14, by induction on the calls. -/
theorem everyHostScheduleIsSafe : Obligations.EveryHostScheduleIsSafe := by
  intro cs
  induction cs with
  | nil => exact fun s h _ => ⟨s, rfl, h⟩
  | cons c rest ih =>
    intro s h hok
    obtain ⟨t, ht, hinv⟩ := h.call (hok c List.mem_cons_self)
    obtain ⟨u, hu, huinv⟩ := ih t hinv fun d hd => hok d (List.mem_cons_of_mem c hd)
    refine ⟨u, ?_, huinv⟩
    simp only [runCalls, ht, hu]

end Sys2Proof.Machine
end

section
/-! Interrupts (60_exceptions.md R372 to R378): the entry of `irq()` and `nmi()`, the return from it, and the order of calls. -/

namespace Sys2Proof.Machine

open Sys2Proof.Shapes

/-! ### The entry -/

/-- Settles O53: a masked `irq()` is the identity. -/
theorem irqIsDroppedWhileMasked : Obligations.IrqIsDroppedWhileMasked := by
  intro s hlive hi
  rw [call_irq hlive, State.irq_masked hi, State.irqAccesses, if_pos hi]
  exact ⟨rfl, rfl⟩

theorem State.irqAccesses_taken {s : State} (h : s.flag .i = false) :
    s.irqAccesses = (s.setFlag .u true).interruptAccesses irqVector false := by
  simp [State.irqAccesses, h]

theorem frame_entry (v : Addr) (n : Nat) (s : State) : Frame [.sp] [.i, .b] [] s (s.entry v n) where
  regs r hr := by cases r <;> simp_all [State.reg]
  flags f hf hu := by simp_all [State.entry_flag]
  unusedFlag := State.entry_unusedFlag v n s
  latches l _ := by cases l <;> simp [State.latch]
  opcode := State.entry_opcode v n s
  clockCount := State.entry_clockCount v n s
  boot := State.entry_boot v n s

theorem State.entry_bus (v : Addr) (n : Nat) (s : State) :
    (s.entry v n).bus = ((s.setFlag .u true).takeInterrupt v false).bus := rfl

theorem State.entry_pc (v : Addr) (n : Nat) (s : State) :
    (s.entry v n).pc = ((s.setFlag .u true).takeInterrupt v false).pc := rfl

theorem State.entry_sp (v : Addr) (n : Nat) (s : State) : (s.entry v n).sp = s.sp - 3 := by
  have h := State.takeInterrupt_sp v false (s.setFlag .u true)
  rw [State.setFlag_sp] at h
  exact h

/-- The hardware entry takes an interrupt, B clear, from the state with U set (R374). -/
theorem entry_of_vector {v : Addr} (hv : 0x01FF < v.toNat) (hv' : 0x01FF < (v + 1).toNat) (n : Nat) (s : State) :
    Entry v n s (s.entry v n) ∧
      EntryAccesses v s.sp ((s.setFlag .u true).interruptAccesses v false) s.bus (s.entry v n) := by
  have hmem : SameMemory s (s.setFlag .u true) := .of_bus rfl
  have hsp : (s.setFlag .u true).sp = s.sp := rfl
  have hflags (f : Flag) : (s.entry v n).flag f = if f = .b then false else if f = .u ∨ f = .i then true else s.flag f := by
    rw [State.entry_flag]
    cases f <;> rfl
  have hstatus : (fun f => if f = .b then false else if f = .i then true else (s.setFlag .u true).flag f) =
      fun f => if f = .b then false else if f = .u ∨ f = .i then true else s.flag f := by
    funext f
    rw [State.setFlag_flag]
    cases f <;> rfl
  refine ⟨⟨?_, hflags, fromVector_takeInterrupt hmem hsp false hv hv' (State.entry_pc v n s), State.entry_sp v n s, rfl,
    memoryBut_takeInterrupt hmem hsp v false (State.entry_bus v n s), frame_entry v n s⟩,
    entryAccesses_takeInterrupt hsp v false (State.entry_bus v n s) (State.entry_pc v n s)⟩
  rw [← hstatus]
  exact stackedFrame_takeInterrupt hmem hsp v false (State.entry_bus v n s)

/-- Settles O54: both calls are the entry, through vectors outside page 1. -/
theorem interruptEntrySequence : Obligations.InterruptEntrySequence := by
  refine fun s hlive => ⟨⟨_, call_nmi hlive, entry_of_vector (by decide) (by decide) nmiCycles s⟩, fun hi => ?_⟩
  rw [call_irq hlive, State.irq_taken hi, State.irqAccesses_taken hi]
  exact ⟨_, rfl, entry_of_vector (by decide) (by decide) irqCycles s⟩

/-! ### The return -/

/-- On the RAM, RTI from a stacked frame restores what was stacked, in any state that keeps S and the three bytes. -/
theorem rti_of_stackedFrame {ret : Addr} {status : Flag → Bool} {s t u : State} (hr : OnRam s)
    (hframe : StackedFrame ret status s t) (hu : OnRam u) (husp : u.sp = s.sp - 3)
    (hkeep : ∀ a ∈ [stackAddr s.sp, stackAddr (s.sp - 1), stackAddr (s.sp - 2)], u.read a = t.read a) :
    ∃ w, exec .rti u = .next w ∧ w.pc = ret ∧ w.sp = s.sp ∧
      ∀ f, w.flag f = if f = .b then false else if f = .u then true else status f := by
  obtain ⟨hhi, hlo, p, hp, -, hstatus⟩ := hframe
  obtain ⟨m, hm⟩ := hu
  obtain ⟨-, hrti⟩ := rtiRestoresStatusAndPc
  obtain ⟨w, hw, ⟨-, hflags, hpc⟩, hwsp, -⟩ := hrti u
  have hfirst : u.sp + 1 = s.sp - 2 := by bv_omega
  have hsecond : u.sp + 2 = s.sp - 1 := by bv_omega
  have hthird : u.sp + 3 = s.sp := by bv_omega
  refine ⟨w, hw, BitVec.eq_of_toNat_eq ?_, BitVec.eq_of_toNat_eq ?_, fun f => ?_⟩
  · rw [hpc, State.afterRead_ram hm, State.afterRead_ram hm, hsecond, hthird, hkeep _ (by simp), hkeep _ (by simp),
      hhi.1 hr, hlo.1 hr, ← hi_eq_ofNat, ← lo_eq_ofNat_mod, ← joinBytes_toNat, joinBytes_hi_lo]
  · rw [hwsp, ← hthird]
    exact (BitVec.toNat_add u.sp 3).symm
  · rw [hflags, hfirst, hkeep _ (by simp), hp.1 hr, hstatus]

theorem boot_of_interrupt {c : HostCall} {s t : State} (hc : c = .nmi ∨ c = .irq) (ht : call c s = .next t) :
    s.boot = .live := by
  obtain rfl | rfl := hc
  · obtain ⟨hlive, -⟩ : s.boot = .live ∧ t = s.nmi := by simpa using call_cases ht
    exact hlive
  · obtain ⟨hlive, -⟩ : s.boot = .live ∧ t = s.irq := by simpa using call_cases ht
    exact hlive

/-- An interrupt that is taken runs an entry. -/
theorem entry_of_call {c : HostCall} {s t : State} (hc : c = .nmi ∨ (c = .irq ∧ s.flag .i = false))
    (ht : call c s = .next t) : ∃ v n, Entry v n s t := by
  have hlive : s.boot = .live := boot_of_interrupt (hc.imp_right And.left) ht
  obtain ⟨⟨t₁, ht₁, hnmi, -⟩, htaken⟩ := interruptEntrySequence s hlive
  obtain rfl | ⟨rfl, hi⟩ := hc
  · exact ⟨_, _, Host.Outcome.next.inj (ht₁.symm.trans ht) ▸ hnmi⟩
  · obtain ⟨t₂, ht₂, hirq, -⟩ := htaken hi
    exact ⟨_, _, Host.Outcome.next.inj (ht₂.symm.trans ht) ▸ hirq⟩

/-- Settles O55: what RTI restores is the frame of the entry. -/
theorem rtiReturnsFromAnInterrupt : Obligations.RtiReturnsFromAnInterrupt := by
  intro c s t u hr hc ht hu husp hkeep
  obtain ⟨v, n, hframe, -, -, hsp, -⟩ := entry_of_call hc ht
  obtain ⟨w, hw, hpc, hwsp, hflags⟩ := rti_of_stackedFrame hr hframe hu (husp.trans hsp) hkeep
  refine ⟨w, hw, hpc, hwsp, fun f => ?_⟩
  rw [hflags]
  cases f <;> rfl

/-! ### The order of calls -/

/-- After an entry an `irq()` is masked. -/
theorem flag_i_of_entry {v : Addr} {n : Nat} {s t : State} (h : Entry v n s t) : t.flag .i = true := by
  obtain ⟨-, hflags, -⟩ := h
  exact hflags .i

theorem boot_of_entry {v : Addr} {n : Nat} {s t : State} (h : Entry v n s t) : t.boot = s.boot := by
  obtain ⟨-, -, -, -, -, -, hframe⟩ := h
  exact hframe.boot

/-- On the RAM, a second entry stacks its frame below that of the first and leaves it as it is. -/
theorem first_frame_kept {v v' : Addr} {n n' : Nat} {s t u : State} (h : Entry v n s t) (h' : Entry v' n' t u)
    (hr : OnRam s) : ∀ a ∈ [stackAddr s.sp, stackAddr (s.sp - 1), stackAddr (s.sp - 2)], u.read a = t.read a := by
  obtain ⟨-, -, -, hsp, -, hmem, -⟩ := h
  obtain ⟨-, -, -, -, -, hmem', -⟩ := h'
  obtain ⟨ht, -⟩ := hmem.1 hr
  obtain ⟨-, hother⟩ := hmem'.1 ht
  have hkeep (k : Byte) (h0 : k ≠ t.sp) (h1 : k ≠ t.sp - 1) (h2 : k ≠ t.sp - 2) :
      u.read (stackAddr k) = t.read (stackAddr k) :=
    hother _ (by simp only [List.mem_cons, List.not_mem_nil, stackAddr_injective.eq_iff, h0, h1, h2, or_self, not_false_eq_true])
  intro a ha
  simp only [List.mem_cons, List.not_mem_nil, or_false] at ha
  obtain rfl | rfl | rfl := ha
  all_goals apply hkeep <;> rw [hsp] <;> bv_omega

/-- Settles O56: the entry masks `irq()` and not `nmi()`, and a second entry starts from where the first has left S. -/
theorem hostOrderIsThePriority : Obligations.HostOrderIsThePriority := by
  intro s hlive
  obtain ⟨⟨t, ht, hentry, -⟩, hirq⟩ := interruptEntrySequence s hlive
  refine ⟨?_, fun hi => ?_⟩
  · obtain ⟨hdropped, -⟩ := irqIsDroppedWhileMasked t ((boot_of_entry hentry).trans hlive) (flag_i_of_entry hentry)
    simp only [runCalls, ht, hdropped]
  · obtain ⟨t, ht, hfirst, -⟩ := hirq hi
    obtain ⟨⟨u, hu, hsecond, -⟩, -⟩ := interruptEntrySequence t ((boot_of_entry hfirst).trans hlive)
    refine ⟨t, u, ht, ?_, hfirst, hsecond, first_frame_kept hfirst hsecond⟩
    simp only [runCalls, ht, hu]

end Sys2Proof.Machine
end

section
/-! The base cycles of the rows, and what an instruction adds to them (70_reset_and_hazards.md R425; 40_fetch_and_addressing.md
R147; 45_control_transfer.md R320). -/

namespace Sys2Proof.Machine

open Sys2Proof.Shapes

/-! ### The table -/

/-- The lists of R425 and R97 agree with the table (R95), row by row. -/
theorem baseCycles_of_row : ∀ b, b ∉ unusedRows →
    (tableRow b).baseCycles = if b = 0x9C then 5 else baseCyclesOf (tableRow b).op (rowMode defaultParams b) := by decide

/-- The opcode's row names the instruction's operation and mode. -/
theorem row_of_opcode {p : Params} {i : Instr} {b : Byte} (hwf : i.wf p = true) (hb : i.opcode = some b) :
    (tableRow b).op = i.op ∧ rowMode p b = i.mode := by
  obtain ⟨c, hc, hrow, -⟩ := Laws.Row.all i p hwf
  obtain rfl : c = b := Option.some.inj (hc.symm.trans hb)
  exact hrow

/-- Settles O17: a well-formed instruction has the operation and the mode of its opcode's row. -/
theorem baseCyclesOfTheRows : Obligations.BaseCyclesOfTheRows := by
  intro i b hwf hb hused
  obtain ⟨hop, hmode⟩ := row_of_opcode hwf hb
  rw [← hop, ← hmode]
  exact baseCycles_of_row b hused

/-! ### The page-crossing cycle -/

/-- The hint that an operation returns, for the NOP rows by opcode (R146). -/
def pageCrossHint (op : Op) (b : Byte) : Bool :=
  match op with
  | .adc | .sbc | .and | .ora | .eor | .cmp | .lda | .ldx | .ldy => true
  | .nop => nopHint b
  | _ => false

/-- The modes that can hint a page crossing (R137, R138, R141). -/
def indexedModes : List Mode := [.abx, .aby, .izy]

theorem State.mode_mem_of_crosses {s : State} {o : Operand} (h : s.crosses o = true) : o.mode ∈ indexedModes := by
  cases o with
  | abx | aby | izy => simp [indexedModes, Operand.mode]
  | imp | imm | zp0 | zpx | zpy | rel | abs | ind | izx => cases h

/-- In those modes the rows of R147 are the rows whose operation returns the hint. -/
theorem pageCrossHint_of_row : ∀ b, rowMode defaultParams b ∈ indexedModes →
    pageCrossHint (tableRow b).op b = decide (b ∈ pageCrossRows) := by decide

/-- A well-formed instruction pays for a page crossing exactly if it crosses one and its row is one of R147. -/
theorem crosses_and_pageCrossHint {i : Instr} {s : State} {b : Byte} (hwf : i.wf defaultParams = true) (hb : i.opcode = some b) :
    (s.crosses i.operand && pageCrossHint i.op b) = true ↔ s.crosses i.operand = true ∧ b ∈ pageCrossRows := by
  obtain ⟨hop, hmode⟩ := row_of_opcode hwf hb
  rw [Bool.and_eq_true]
  refine and_congr_right fun hcross => ?_
  have hindexed : rowMode defaultParams b ∈ indexedModes := hmode ▸ State.mode_mem_of_crosses hcross
  rw [← hop, pageCrossHint_of_row b hindexed, decide_eq_true_iff]

/-! ### The countdown -/

/-- The cycles of a taken branch: one, and one more for a target on another page than the next instruction (R320). -/
def takenCycles (d : Byte) (s : State) : Nat :=
  1 + (if (branchTarget d s).toNat / 256 = (s.pc + 1).toNat / 256 then 0 else 1)

/-- A branch adds its cycles if it is taken, and none otherwise. -/
theorem countdown_of_branch {i : Byte → Instr} {cond : State → Bool} (h : Branch i cond) (d : Byte) (s : State) :
    ∃ t, exec (i d) s = .next t ∧ t.countdown = s.countdown + (if cond s then takenCycles d s else 0) := by
  obtain ⟨t, ht, htaken, hnot, -⟩ := h d s
  refine ⟨t, ht, ?_⟩
  cases hc : cond s with
  | true =>
    obtain ⟨-, -, hcount⟩ := htaken hc
    rw [hcount, Nat.add_assoc]
    rfl
  | false =>
    obtain ⟨-, -, hcount⟩ := hnot hc
    exact hcount

/-- What every instruction adds to the countdown: the extra cycle if both hints are 1, and the cycles of a taken branch (R123,
R320). -/
theorem exec_countdown {i : Instr} {b : Byte} (hb : i.opcode = some b) (s : State) :
    ∃ t, exec i s = .next t ∧ t.countdown = s.countdown
      + (if s.crosses i.operand && pageCrossHint i.op b then 1 else 0)
      + (if branchTaken i s then takenCycles (displacement i) s else 0) := by
  obtain ⟨-, -, -, -, -, -, -, -, hbpl, hbmi, hbvc, hbvs, hbcc, hbcs, hbne, hbeq⟩ := branchInstructions
  cases i
  case bpl d => exact countdown_of_branch hbpl d s
  case bmi d => exact countdown_of_branch hbmi d s
  case bvc d => exact countdown_of_branch hbvc d s
  case bvs d => exact countdown_of_branch hbvs d s
  case bcc d => exact countdown_of_branch hbcc d s
  case bcs d => exact countdown_of_branch hbcs d s
  case bne d => exact countdown_of_branch hbne d s
  case beq d => exact countdown_of_branch hbeq d s
  case' nop code o => obtain rfl : code = b := Option.some.inj hb
  -- No other operation writes the countdown.
  all_goals exact ⟨_, rfl, by simp [State.runOperation_eq, branchTaken, pageCrossHint, Instr.op, Instr.operand]⟩

/-- Settles O18: both hints are 1 exactly where a row of R147 crosses a page. -/
theorem instructionTicks : Obligations.InstructionTicks := by
  intro i s b hwf hb
  obtain ⟨t, ht, hcount⟩ := exec_countdown hb s
  rw [if_congr (crosses_and_pageCrossHint hwf hb) rfl rfl] at hcount
  exact ⟨t, ht, hcount⟩

end Sys2Proof.Machine
end

section
/-! `reset()` (70_reset_and_hazards.md R410; 10_state.md R38): the fields it sets, its two reads, and the ticks it takes. -/

namespace Sys2Proof.Machine

/-- Clock calls that the countdown of a live core covers only count (R120, R124). -/
theorem runCalls_replicate_clock {s : State} (hlive : s.boot = .live) {n : Nat} (hn : n ≤ s.countdown) :
    runCalls (List.replicate n .clock) s =
      .next { s with countdown := s.countdown - n, clockCount := s.clockCount + n } := by
  induction n generalizing s with
  | zero => rfl
  | succ n ih =>
    have hidle : call .clock s = .next s.tick := clockWith_idle hlive (by omega)
    have hrest : n ≤ s.tick.countdown := Nat.le_sub_one_of_lt hn
    rw [List.replicate_succ, runCalls, hidle]
    refine (ih (s := s.tick) hlive hrest).trans ?_
    simp only [State.tick, Nat.sub_sub, Nat.add_assoc, Nat.add_comm 1 n]

/-- Settles O57: the fields are those of `resetSequence`, the two reads are one little-endian word, and the eight ticks are idle. -/
theorem resetSequence : Obligations.ResetSequence := by
  intro s hboot
  have hreset := call_reset hboot
  have hpc : s.resetSequence.pc.toNat = ((s.afterRead 0xFFFC).read 0xFFFD).toNat * 256 + (s.read 0xFFFC).toNat :=
    State.readPair_toNat s 0xFFFC 0xFFFD
  have hmem : SameMemory s s.resetSequence :=
    (MemoryBut.of_bus rfl : SameMemory s s).afterReads (l := [0xFFFC, 0xFFFD]) rfl
  have hreplay : replay s.resetAccesses s.bus = some s.resetSequence.bus := Accounts.pair 0xFFFC 0xFFFD s
  refine ⟨_, hreset, rfl, rfl, rfl, rfl, rfl, hpc, rfl, rfl, rfl, rfl, rfl, rfl, rfl, rfl, hmem, rfl, hreplay, ?_⟩
  rw [runCalls, hreset]
  exact runCalls_replicate_clock rfl (le_refl 8)

end Sys2Proof.Machine
end

section
/-! Encode after decode (30_encoding.md sections 1 to 4): what the decoder builds from an opcode's row has that row, in the listed
encodings and under the parameters. -/

namespace Sys2Proof.Machine

/-! ### The rows of the table, under all parameters -/

/-- The encodings of the instruction rules list every row of the table (R95) but those of NOP and `???` and the
second one of SBC. -/
theorem encodings_lookup_rowMode (p : Params) {b : Byte} (hnop : (tableRow b).op ≠ .nop) (hunused : (tableRow b).op ≠ .unused)
    (hsbc : (tableRow b).op = .sbc → b ≠ 0xEB) : (tableRow b).op.encodings.lookup (rowMode p b) = some b := by
  have hrow (k : BrkMode) (n : NopModes) : ∀ c, (tableRow c).op ≠ .nop → (tableRow c).op ≠ .unused →
      ((tableRow c).op = .sbc → c ≠ 0xEB) →
      (tableRow c).op.encodings.lookup (rowMode ⟨k, n, .nop, .ram []⟩ c) = some c := by
    cases k <;> cases n <;> decide
  exact hrow p.brkMode p.nopModes b hnop hunused hsbc

/-- The NOP rows of R97 are all the rows of the table (R95) with that operation, in the same modes. -/
theorem nopRowMode_of_row (p : Params) {b : Byte} (h : (tableRow b).op = .nop) : nopRowMode p b = some (rowMode p b) := by
  have hrow (k : BrkMode) (n : NopModes) : ∀ c, (tableRow c).op = .nop →
      nopRowMode ⟨k, n, .nop, .ram []⟩ c = some (rowMode ⟨k, n, .nop, .ram []⟩ c) := by
    cases k <;> cases n <;> decide
  exact hrow p.brkMode p.nopModes b h

theorem eq_zero_of_row_brk : ∀ {b : Byte}, (tableRow b).op = .brk → b = 0x00 := by decide

theorem rowMode_zero (p : Params) : rowMode p 0x00 = brkRowMode p := rfl

/-! ### The instruction of a row -/

/-- The instruction that a row's operation makes of an operand in the row's mode has that row: the parameters let it stand, and its
opcode is the row's. -/
theorem rowOk_and_opcode_of_assemble {p : Params} {b : Byte} {i : Instr}
    (hruns : ¬((tableRow b).op = .unused ∧ p.illegal = .refuse)) (hmode : i.mode = rowMode p b)
    (hasm : assemble (tableRow b).op b i.operand = some i) : i.rowOk p = true ∧ i.opcode = some b := by
  obtain ⟨hop, -⟩ := assemble_cases hasm
  have hlisted (hnop : i.op ≠ .nop) (hunused : i.op ≠ .unused) (hsbc : i.op = .sbc → b ≠ 0xEB) :
      i.op.encodings.lookup i.mode = some b := by
    rw [hop] at hnop hunused hsbc ⊢
    rw [hmode]
    exact encodings_lookup_rowMode p hnop hunused hsbc
  rw [← hop] at hasm
  cases i
  case sbc viaEB o =>
    obtain ⟨rfl, -⟩ := Instr.sbc.inj (Option.some.inj hasm)
    by_cases hb : b = 0xEB
    · subst hb
      exact ⟨beq_iff_eq.mpr (hmode.trans (rowMode_plain p sbc_second).2), rfl⟩
    · rw [beq_eq_false_iff_ne.mpr hb]
      exact ⟨rfl, hlisted nofun nofun fun _ => hb⟩
  case brk o =>
    obtain rfl := eq_zero_of_row_brk hop.symm
    exact ⟨beq_iff_eq.mpr hmode, hlisted nofun nofun nofun⟩
  case nop code o =>
    obtain ⟨rfl, -⟩ := Instr.nop.inj (Option.some.inj hasm)
    exact ⟨beq_iff_eq.mpr ((nopRowMode_of_row p hop.symm).trans (congrArg some hmode.symm)), rfl⟩
  case unused code =>
    obtain rfl := Instr.unused.inj (Option.some.inj hasm)
    have hpolicy : p.illegal = .nop := by
      cases hp : p.illegal with
      | nop => rfl
      | refuse => exact absurd ⟨hop.symm, hp⟩ hruns
    have hwf := unused_wf hpolicy ((tableRow_op_eq_unused_iff b).mp hop.symm)
    rw [Instr.wf, Bool.and_eq_true] at hwf
    exact ⟨hwf.2, rfl⟩
  -- The parameters govern no other operation, and its opcode is the one listed for its mode.
  all_goals exact ⟨rfl, hlisted nofun nofun nofun⟩

/-- Settles O3: a decoded instruction has the row of the first byte, and the bytes taken after it are its operand's. -/
theorem decodedBytesAreTheEncoding : Obligations.DecodedBytesAreTheEncoding := by
  intro p bs rest i h
  obtain ⟨b, tail, rfl, hruns, htake, hasm⟩ := decode_cases h
  obtain ⟨hmode, rfl⟩ := takeOperand_cases htake
  obtain ⟨hrow, hopcode⟩ := rowOk_and_opcode_of_assemble hruns hmode hasm
  exact ⟨by rw [Instr.wf, modeOk_of_decode h, hrow]; rfl, by rw [encode, hopcode]; rfl⟩

end Sys2Proof.Machine
end
